-- ==== Sys2Proof/Word.lean ====
section
/-! DEFINITION. The bit vectors the spec names: bytes, 16-bit fields, 24-bit message ids, the 96-bit bus word (00 R5, 10 R20, R43). -/

namespace Sys2Proof

/-- An 8-bit unsigned value (00 R8). -/
abbrev Byte := BitVec 8

/-- A 16-bit field: a button field, a stick axis in two's complement, a CRC-16 (00 R5, 10 R20). -/
abbrev Half := BitVec 16

/-- A MAVLink message id, zero-extended to 24 bits in a v1 frame (30 R97). -/
abbrev MsgId := BitVec 24

/-- A GamepadState as it crosses a port (10 R43). -/
abbrev BusWord := BitVec 96

/-- One CRSF channel value, 0..2047 (30 R94). -/
abbrev Channel := BitVec 11

end Sys2Proof
end

