-- ==== Sys2Proof/Types.lean ====
section
/-! DEFINITION. The value types, enumerations and events the spec gives the machine (10 R20 to R26, R32 to R37; 60 R341; 30 R108). -/

namespace Sys2Proof

/-- Which parser an instance holds, PROTOCOL (00 R3); also the name of that parser. -/
inductive Protocol where
  | text
  | crsf
  | mavlink
  deriving DecidableEq, Repr

/-- The canonical state: seven independent fields, stick axes in two's complement (10 R20). -/
structure GamepadState where
  buttons : Half
  lx : Half
  ly : Half
  rx : Half
  ry : Half
  lt : Byte
  rt : Byte
  deriving DecidableEq, Repr

/-- NEUTRAL: every field 0 (10 R21). -/
def GamepadState.neutral : GamepadState := ⟨0, 0, 0, 0, 0, 0, 0⟩

/-- GamepadFieldUpdate: the new value of one of the seven fields (10 R22). -/
inductive FieldUpdate where
  | buttons (v : Half)
  | leftStickX (v : Half)
  | leftStickY (v : Half)
  | rightStickX (v : Half)
  | rightStickY (v : Half)
  | leftTrigger (v : Byte)
  | rightTrigger (v : Byte)
  deriving DecidableEq, Repr

/-- A percentage of 10 R23, a u8 in 0..100; a value above 100 cannot be written (log 31). -/
abbrev Percent := Fin 101

/-- TelemetryData: five fields, each independently present or absent: u16 millivolts, a percentage, the charge flag, signed 8-bit dBm,
a percentage (10 R23). -/
structure TelemetryData where
  batteryMv : Option Half
  batteryPct : Option Percent
  charging : Option Bool
  rssiDbm : Option Int8
  linkQuality : Option Percent
  deriving DecidableEq, Repr

/-- Every field of the telemetry record is absent (42 R212). -/
def TelemetryData.allAbsent (d : TelemetryData) : Bool :=
  d.batteryMv.isNone && d.batteryPct.isNone && d.charging.isNone && d.rssiDbm.isNone && d.linkQuality.isNone

/-- A ChannelMapping entry of a stick axis or a trigger: the channel that drives it, 0-based, and its inversion flag (10 R24). -/
structure ChannelSource where
  ch : Fin 16
  inv : Bool
  deriving DecidableEq, Repr

/-- ChannelMapping: an absent entry leaves its field neutral; `buttons[i]` is the channel of button bit i (10 R24). -/
structure ChannelMapping where
  lx : Option ChannelSource
  ly : Option ChannelSource
  rx : Option ChannelSource
  ry : Option ChannelSource
  lt : Option ChannelSource
  rt : Option ChannelSource
  buttons : Vector (Option (Fin 16)) 16
  deriving DecidableEq, Repr

/-- The four stick axes a MANUAL_CONTROL field can drive (10 R25). -/
inductive StickAxis where
  | lx
  | ly
  | rx
  | ry
  deriving DecidableEq, Repr

/-- An AxisMapping entry: the stick axis driven and the inversion flag (10 R25). -/
structure AxisTarget where
  dst : StickAxis
  inv : Bool
  deriving DecidableEq, Repr

/-- AxisMapping: the targets of x, y and r; an absent entry drops the field (10 R25). -/
structure AxisMapping where
  x : Option AxisTarget
  y : Option AxisTarget
  r : Option AxisTarget
  deriving DecidableEq, Repr

/-- The fields of a decoded MANUAL_CONTROL payload; x, y, z, r in two's complement (44 R272). -/
structure ManualFields where
  x : Half
  y : Half
  z : Half
  r : Half
  buttons : Half
  buttons2 : Half
  target : Byte
  deriving DecidableEq, Repr

/-- The reasons a frame or line is rejected (60 R341). -/
inductive RejectCode where
  | txtMissingNewline
  | txtMissingStar
  | txtBadChecksumField
  | txtChecksumMismatch
  | txtUnknownTag
  | txtUnknownFieldCode
  | txtMalformedField
  | txtOutOfRange
  | txtLineTooLong
  | crsfUnderLength
  | crsfOverLength
  | crsfCrcMismatch
  | crsfBadPayloadLength
  | mavCrcMismatch
  deriving DecidableEq, Repr

/-- The output events of the parsers (10 R26). -/
inductive OutEvent where
  | fullState (s : GamepadState)
  | update (u : FieldUpdate)
  | rcChannels (ch : Vector Channel 16)
  | telemetry (type : Byte) (payload : List Byte)
  | ignoredType (type : Byte)
  | heartbeat (sysid compid : Byte)
  | manualControl (m : ManualFields)
  | ignoredMsg (msgid : MsgId)
  | reject (code : RejectCode)
  deriving DecidableEq, Repr

/-- crsf.st (10 R32). -/
inductive CrsfSt where
  | awaitSync
  | awaitLength
  | accumulatePayload
  | awaitCrc
  deriving DecidableEq, Repr

/-- mav.st (10 R33). -/
inductive MavSt where
  | awaitSync
  | awaitLength
  | accumulateHeader
  | accumulatePayload
  | awaitCrcLow
  | awaitCrcHigh
  deriving DecidableEq, Repr

/-- mav.ver, the header format of the candidate frame (10 R33). -/
inductive MavVer where
  | v1
  | v2
  deriving DecidableEq, Repr

/-- out.st (10 R35). -/
inductive OutSt where
  | waitValue
  | waitReady
  | sending
  deriving DecidableEq, Repr

/-- The header of a MAVLink frame without its length and message id; the two flag bytes (incompatibility, compatibility) are
present in v2 only (43 R244). -/
structure MavHeader where
  flags : Option (Byte × Byte)
  seq : Byte
  sysid : Byte
  compid : Byte
  deriving DecidableEq, Repr

/-- The four storage arrays (20 R60). -/
inductive BufId where
  | txtBuf
  | crsfBuf
  | mavHdr
  | mavPay
  deriving DecidableEq, Repr

/-- What a text line asks for: a full state or one of the seven field updates (30 R102, R103). -/
inductive LineKind where
  | full
  | b
  | lx
  | ly
  | rx
  | ry
  | lt
  | rt
  deriving DecidableEq, Repr

/-- What parse makes of an accepted line (40 R130). -/
inductive LineMsg where
  | full (s : GamepadState)
  | update (u : FieldUpdate)
  deriving DecidableEq, Repr

/-- The class of a validated CRSF frame by its type byte (30 R93). -/
inductive CrsfClass where
  | rc
  | telem
  | unknown
  deriving DecidableEq, Repr

/-- The class of a completed MAVLink frame that is not rejected (43 R241, R243; 44 R270). -/
inductive MavClass where
  | heartbeat
  | manualControl
  | ignored
  deriving DecidableEq, Repr

/-- The input ports sampled in one clock cycle of a synchronous implementation (30 R108). -/
structure PortIn where
  rst : Bool
  rxValid : Bool
  rxData : Byte
  rxErr : Bool
  snkReady : Bool
  snkDone : Bool
  snkOk : Bool
  deriving DecidableEq, Repr

/-- What one step takes in (00 R6, 70 R380): a received byte, a receive error, the output task's wake step, the sink's readiness,
the end of a send, reset; or one whole clock cycle of the synchronous interface (30 R108). -/
inductive Event where
  | rxByte (b : Byte)
  | rxError
  | wake
  | ready
  | sendDone (ok : Bool)
  | reset
  | cycle (p : PortIn)
  deriving DecidableEq, Repr

end Sys2Proof
end

