-- ==== Sys2Proof/Config.lean ====
section
/-! DEFINITION. The implementation parameters of the spec (00 R5) and their constraints (70 R383). Their decided values are in
Machine/Defaults.lean. The spec leaves no value of a step open, so there is no free value here (log 21). -/

namespace Sys2Proof

/-- The parameters of an instance, fixed for a whole run (00 R5, 10 R39, 20 R71). MAV_EXTRA is a partial map: the first entry of an
id counts. -/
structure Config where
  protocol : Protocol
  crsfSync : List Byte
  crsfMaxLen : Nat
  crsfTypeRc : Byte
  crsfKnownTelem : List Byte
  mavCrcCoversLen : Bool
  mavExtra : List (MsgId × Byte)
  mavMaxPayload : Nat
  textLineMax : Nat
  channelMap : ChannelMapping
  axisMap : AxisMapping
  deriving DecidableEq, Repr

/-- The parameter constraints (70 R383 (b); MAV_MAX_PAYLOAD is fixed at 255: 93 I9). -/
abbrev Config.wf (c : Config) : Prop :=
  2 ≤ c.crsfMaxLen ∧ c.crsfMaxLen ≤ 255 ∧ c.crsfTypeRc ∉ c.crsfKnownTelem ∧ 45 ≤ c.textLineMax ∧ c.crsfSync ≠ [] ∧
    c.mavMaxPayload = 255

/-- MAV_EXTRA(id), none outside its domain (43 R240). -/
def Config.extra (c : Config) (id : MsgId) : Option Byte := c.mavExtra.lookup id

/-- TelemetryPayload, the OPEN parameter of the telemetry encoder: frames of (type, payload), each payload at most 60 bytes, none
exactly when every field is absent (42 R212, D37). -/
structure TelemetryPayload where
  frames : TelemetryData → List (Byte × List Byte)
  empty_iff : ∀ d, frames d = [] ↔ d.allAbsent = true
  payload_le : ∀ d, ∀ f ∈ frames d, f.2.length ≤ 60

end Sys2Proof
end

