-- ==== Sys2Proof/Machine/Defaults.lean ====
section
/-! DEFINITION. The decided values of the parameters (00 R5), among them the default mappings (42 R210, 44 R279). -/

namespace Sys2Proof.Machine

/-- The default ChannelMapping (42 R210). -/
def defaultChannelMap : ChannelMapping where
  rx := some ⟨0, false⟩
  ry := some ⟨1, false⟩
  ly := some ⟨2, false⟩
  lx := some ⟨3, false⟩
  lt := some ⟨8, false⟩
  rt := some ⟨9, false⟩
  buttons := #v[some 4, some 5, some 6, some 7, none, none, none, none, none, none, none, none, none, none, none, none]

/-- The default AxisMapping (44 R279). -/
def defaultAxisMap : AxisMapping where
  x := some ⟨.lx, false⟩
  y := some ⟨.ly, false⟩
  r := some ⟨.rx, false⟩

/-- The decided values of the parameters for an instance with the given parser (00 R5). -/
def defaultConfig (p : Protocol) : Config where
  protocol := p
  crsfSync := [0xC8]
  crsfMaxLen := 62
  crsfTypeRc := 0x16
  crsfKnownTelem := [0x08, 0x0B, 0x14]
  mavCrcCoversLen := false
  mavExtra := [(0, 50), (69, 243)]
  mavMaxPayload := 255
  textLineMax := 64
  channelMap := defaultChannelMap
  axisMap := defaultAxisMap

end Sys2Proof.Machine
end

