-- ==== Sys2Proof/Machine/Memory.lean ====
section
/-! DEFINITION. A storage array of the hardware: index and byte pairs in one canonical form (20 R60). -/

namespace Sys2Proof.Machine

/-- The contents of a storage array, by index. -/
abbrev Memory := List Host.Cell

/-- What an index that nothing has written reads as: the reset contents of the arrays are unspecified, and no rule reads a byte
before writing it (10 R42, 20 R72). DESIGN CHOICE 0x00, unsafe (log 5). -/
def Memory.blank : Byte := 0

/-- The canonical form: indexes strictly rising, no entry equal to what an unlisted index reads as. -/
abbrev Memory.wf (m : Memory) : Prop :=
  m.Pairwise (fun a b => a.1 < b.1) ∧ ∀ c ∈ m, c.2 ≠ Memory.blank

/-- The byte at an index. -/
def Memory.read : Memory → Nat → Byte
  | [], _ => Memory.blank
  | (a, v) :: m, i => if a = i then v else Memory.read m i

/-- The array with one byte written, in canonical form again. -/
def Memory.write : Memory → Nat → Byte → Memory
  | [], i, v => if v = Memory.blank then [] else [(i, v)]
  | (a, w) :: m, i, v =>
    if i < a then (if v = Memory.blank then (a, w) :: m else (i, v) :: (a, w) :: m)
    else if i = a then (if v = Memory.blank then m else (i, v) :: m)
    else (a, w) :: Memory.write m i v

/-- The bytes at the n indexes from i on, as a sequence (00 R9 MemRead). -/
def Memory.readRange (m : Memory) (i n : Nat) : List Byte := (List.range' i n).map m.read

/-- The array with a byte sequence written from an index on. -/
def Memory.writeRange (m : Memory) (i : Nat) : List Byte → Memory
  | [] => m
  | v :: s => Memory.writeRange (m.write i v) (i + 1) s

end Sys2Proof.Machine
end

