-- ==== Sys2Proof/Machine/State.lean ====
section
/-! DEFINITION. The machine's state (10 R31 to R36), plain data, its reset value (10 R42), and the reasons a step can stop. -/

namespace Sys2Proof.Machine

/-- Registers of agent TXT (10 R31). -/
structure TxtRegs where
  buf : Memory
  idx : Nat
  ovf : Bool
  held : GamepadState
  deriving DecidableEq, Repr

/-- Registers of agent CRSF (10 R32). -/
structure CrsfRegs where
  st : CrsfSt
  len : Byte
  idx : Byte
  buf : Memory
  deriving DecidableEq, Repr

/-- Registers of agent MAV (10 R33). -/
structure MavRegs where
  st : MavSt
  ver : MavVer
  len : Byte
  hidx : Nat
  pidx : Nat
  hdr : Memory
  pay : Memory
  crcLo : Byte
  deriving DecidableEq, Repr

/-- Registers of agent MBOX (10 R34). -/
structure MboxRegs where
  cell : GamepadState
  hasNew : Bool
  deriving DecidableEq, Repr

/-- Registers of agent OUT (10 R35). -/
structure OutRegs where
  st : OutSt
  cur : GamepadState
  deriving DecidableEq, Repr

/-- The output signals of the step just made: the parser's output event, the pulses link_present, fault[0] and fault[1], and the
internal strobes publish and take with the state that crosses the port (30 R108, 60 R358; log 8). -/
structure Pulses where
  evt : Option OutEvent
  linkPresent : Bool
  faultIn : Bool
  faultOut : Bool
  publish : Option GamepadState
  take : Option GamepadState
  deriving DecidableEq, Repr

/-- No output signal. -/
def Pulses.quiet : Pulses := ⟨none, false, false, false, none, none⟩

/-- The state: the instance's parameters, the registers of every agent, the output signals of the last step, and the input events the
environment still holds (log 1). -/
structure State where
  cfg : Config
  txt : TxtRegs
  crsf : CrsfRegs
  mav : MavRegs
  mbox : MboxRegs
  out : OutRegs
  pulses : Pulses
  inbox : List Event
  deriving DecidableEq, Repr

/-- Why a step stops. -/
inductive Fault where
  /-- An access outside a storage array, raised by memRead and memWrite; the spec says it is impossible in every reachable state
  (20 R61), and no state with the invariant of Safety.lean raises it. Safe (log 6). -/
  | bufferIndex (b : BufId)
  deriving DecidableEq, Repr

/-- Why an instruction has no meaning here. -/
inductive Refusal where
  /-- An arm of exec that is not modelled; no arm raises it. Safe. -/
  | notModelled (mnemonic : String)
  deriving DecidableEq, Repr

/-- The outcome of a step or a meaning. -/
abbrev Res := Host.Outcome State Fault Refusal

/-- Reset value of the TXT registers (10 R31). -/
def TxtRegs.reset : TxtRegs := ⟨[], 0, false, GamepadState.neutral⟩

/-- Reset value of the CRSF registers (10 R32). -/
def CrsfRegs.reset : CrsfRegs := ⟨.awaitSync, 0, 0, []⟩

/-- Reset value of the MAV registers (10 R33). -/
def MavRegs.reset : MavRegs := ⟨.awaitSync, .v1, 0, 0, 0, [], [], 0⟩

/-- Reset value of the MBOX registers (10 R34). -/
def MboxRegs.reset : MboxRegs := ⟨GamepadState.neutral, false⟩

/-- Reset value of the OUT registers (10 R35). -/
def OutRegs.reset : OutRegs := ⟨.waitValue, GamepadState.neutral⟩

/-- The state right after reset of an instance with the given parameters (10 R42, 70 R380). -/
def State.resetWith (c : Config) : State :=
  ⟨c, TxtRegs.reset, CrsfRegs.reset, MavRegs.reset, MboxRegs.reset, OutRegs.reset, Pulses.quiet, []⟩

/-- The state right after reset with the decided parameters; PROTOCOL is OPEN in the spec: DESIGN CHOICE Text, unsafe (log 2). -/
def State.reset : State := State.resetWith (defaultConfig .text)

end Sys2Proof.Machine
end

