-- ==== Sys2Proof/Machine/Flags.lean ====
section
/-! DEFINITION. The two flags, mbox.has_new and txt.ovf, and who writes them (10 R38). -/

namespace Sys2Proof.Machine

/-- mbox.has_new after a Publish: set (45 R301). -/
def hasNewAfterPublish : Bool := true

/-- mbox.has_new after a Take: cleared (45 R302). -/
def hasNewAfterTake : Bool := false

/-- The line buffer has room for one more byte (40 R150). -/
def lineHasRoom (s : State) : Bool := decide (s.txt.idx < s.cfg.textLineMax - 1)

/-- txt.ovf after a byte other than a newline: set when the line buffer is full, else kept (40 R150). -/
def ovfAfterByte (s : State) : Bool := if lineHasRoom s then s.txt.ovf else true

/-- txt.ovf after a newline: cleared (40 R149). -/
def ovfAfterNewline : Bool := false

/-- OUT.WAKE is enabled: out.st is WaitValue and mbox.has_new is 1 (45 R307). -/
def wakeEnabled (s : State) : Bool := decide (s.out.st = .waitValue) && s.mbox.hasNew

end Sys2Proof.Machine
end

