-- ==== Sys2Proof/Machine/Ops.lean ====
section
/-! DEFINITION. The named operations over the registers and arrays: setters, array access, events, the mailbox, the reject entry, and
reset. There is no return from a reject (60 R351), so none is defined. -/

namespace Sys2Proof.Machine

/-- Replaces the TXT registers. -/
def State.setTxt (s : State) (r : TxtRegs) : State := { s with txt := r }

/-- Replaces the CRSF registers. -/
def State.setCrsf (s : State) (r : CrsfRegs) : State := { s with crsf := r }

/-- Replaces the MAV registers. -/
def State.setMav (s : State) (r : MavRegs) : State := { s with mav := r }

/-- Replaces the MBOX registers. -/
def State.setMbox (s : State) (r : MboxRegs) : State := { s with mbox := r }

/-- Replaces the OUT registers. -/
def State.setOut (s : State) (r : OutRegs) : State := { s with out := r }

/-- Replaces the output signals. -/
def State.setPulses (s : State) (p : Pulses) : State := { s with pulses := p }

/-- A storage array (20 R60). -/
def State.buf (s : State) : BufId → Memory
  | .txtBuf => s.txt.buf
  | .crsfBuf => s.crsf.buf
  | .mavHdr => s.mav.hdr
  | .mavPay => s.mav.pay

/-- Replaces a storage array. -/
def State.setBuf (s : State) (b : BufId) (m : Memory) : State :=
  match b with
  | .txtBuf => s.setTxt { s.txt with buf := m }
  | .crsfBuf => s.setCrsf { s.crsf with buf := m }
  | .mavHdr => s.setMav { s.mav with hdr := m }
  | .mavPay => s.setMav { s.mav with pay := m }

/-- The size of a storage array in bytes (20 R60). -/
def Config.cap (c : Config) : BufId → Nat
  | .txtBuf => c.textLineMax - 1
  | .crsfBuf => c.crsfMaxLen
  | .mavHdr => 8
  | .mavPay => c.mavMaxPayload

/-- MemRead: n bytes of an array from index i, none when one lies outside it (00 R9, 20 R61). -/
def State.memRead (s : State) (b : BufId) (i n : Nat) : Option (List Byte) :=
  if i + n ≤ Config.cap s.cfg b then some ((s.buf b).readRange i n) else none

/-- MemWrite of one byte, none when the index lies outside the array (00 R9, 20 R61). -/
def State.memWrite (s : State) (b : BufId) (i : Nat) (v : Byte) : Option State :=
  if i < Config.cap s.cfg b then some (s.setBuf b ((s.buf b).write i v)) else none

/-- Emits a parser's output event (00 R9, 10 R26). -/
def emit (e : OutEvent) (s : State) : State := s.setPulses { s.pulses with evt := some e }

/-- Pulses link_present (44 R271). -/
def pulseLink (s : State) : State := s.setPulses { s.pulses with linkPresent := true }

/-- Pulses fault[0], Fault(Input) (45 R306). -/
def pulseFaultIn (s : State) : State := s.setPulses { s.pulses with faultIn := true }

/-- Pulses fault[1], Fault(Output) (45 R310). -/
def pulseFaultOut (s : State) : State := s.setPulses { s.pulses with faultOut := true }

/-- Publish(g): overwrites the mailbox cell and sets has_new, in every state (45 R301). -/
def publish (g : GamepadState) (s : State) : State :=
  (s.setMbox ⟨g, hasNewAfterPublish⟩).setPulses { s.pulses with publish := some g }

/-- Take: its result is the cell before the step; it clears has_new and keeps the cell (45 R302). With has_new = 0, never issued, the
same: the cell is returned (93 I3; log 9). -/
def take (s : State) : State :=
  (s.setMbox ⟨s.mbox.cell, hasNewAfterTake⟩).setPulses { s.pulses with take := some s.mbox.cell }

/-- The framer of a parser in its scan state with its counters cleared (60 R349). -/
def toScan (p : Protocol) (s : State) : State :=
  match p with
  | .text => s.setTxt { s.txt with idx := 0, ovf := ovfAfterNewline }
  | .crsf => s.setCrsf { s.crsf with st := .awaitSync, len := 0, idx := 0 }
  | .mavlink => s.setMav { s.mav with st := .awaitSync, len := 0, hidx := 0, pidx := 0 }

/-- Reject entry, the one way an exception is taken: the raising framer returns to its scan state, the event is emitted, nothing is
saved and nothing else changes (60 R349). -/
def raiseReject (p : Protocol) (code : RejectCode) (s : State) : State := emit (.reject code) (toScan p s)

/-- Reset: every register at its reset value; the parameters stay, and so do the environment's further events (70 R380, R382; log 11). -/
def applyReset (s : State) : State := { State.resetWith s.cfg with inbox := s.inbox }

end Sys2Proof.Machine
end

