-- ==== Sys2Proof/Machine/Bytes.lean ====
section
/-! DEFINITION. Characters, digits, byte order of multi-byte fields, header layout of a MAVLink frame, and the bus layout of a
GamepadState (20 R62; 30 R95 to R97, R101, R104; 10 R43). -/

namespace Sys2Proof.Machine

/-- The newline, 0x0A (30 R101). -/
def chLf : Byte := 0x0A
/-- '*' (30 R101). -/
def chStar : Byte := 0x2A
/-- ':' (30 R101). -/
def chColon : Byte := 0x3A
/-- '-' (30 R101). -/
def chMinus : Byte := 0x2D
/-- 'G' (30 R101). -/
def chG : Byte := 0x47
/-- 'U' (30 R101). -/
def chU : Byte := 0x55
/-- 'B' (30 R101). -/
def chB : Byte := 0x42
/-- 'L' (30 R101). -/
def chL : Byte := 0x4C
/-- 'R' (30 R101). -/
def chR : Byte := 0x52
/-- 'X' (30 R101). -/
def chX : Byte := 0x58
/-- 'Y' (30 R101). -/
def chY : Byte := 0x59
/-- 'T' (30 R101). -/
def chT : Byte := 0x54

/-- The MAVLink v1 sync byte (43 R231). -/
def syncV1 : Byte := 0xFE
/-- The MAVLink v2 sync byte (43 R232). -/
def syncV2 : Byte := 0xFD

/-- The value of a hexadecimal digit of either case, none for any other byte (30 R104). -/
def hexVal (b : Byte) : Option Nat :=
  if 0x30 ≤ b ∧ b ≤ 0x39 then some (b.toNat - 0x30)
  else if 0x41 ≤ b ∧ b ≤ 0x46 then some (b.toNat - 0x37)
  else if 0x61 ≤ b ∧ b ≤ 0x66 then some (b.toNat - 0x57)
  else none

/-- The value of a decimal digit, none for any other byte (30 R101, R104). -/
def decVal (b : Byte) : Option Nat :=
  if 0x30 ≤ b ∧ b ≤ 0x39 then some (b.toNat - 0x30) else none

/-- The upper-case hexadecimal digit of a value below 16 (40 R154). -/
def hexDigit (n : Nat) : Byte :=
  if n < 10 then BitVec.ofNat 8 (0x30 + n) else BitVec.ofNat 8 (0x37 + n)

/-- The decimal digit of a value below 10 (40 R154). -/
def decDigit (n : Nat) : Byte := BitVec.ofNat 8 (0x30 + n)

/-- HEX2: exactly two upper-case digits, most significant first (40 R154). -/
def hex2 (v : Byte) : List Byte := [hexDigit (v.toNat / 16), hexDigit (v.toNat % 16)]

/-- HEX4: exactly four upper-case digits, most significant first (40 R154). -/
def hex4 (v : Half) : List Byte :=
  [hexDigit (v.toNat / 4096), hexDigit (v.toNat / 256 % 16), hexDigit (v.toNat / 16 % 16), hexDigit (v.toNat % 16)]

/-- A 16-bit field from its two bytes, least significant first (20 R62, 30 R98, R99). -/
def le16 (lo hi : Byte) : Half := hi ++ lo

/-- A 24-bit message id from its three bytes, least significant first (30 R97). -/
def le24 (b0 b1 b2 : Byte) : MsgId := (b2 ++ b1 ++ b0 : BitVec 24)

/-- Byte k of a value, byte 0 least significant. -/
def byteOf {w : Nat} (v : BitVec w) (k : Nat) : Byte := v.extractLsb' (8 * k) 8

/-- Element k of a byte sequence, 0 past its end. -/
def byteAt (s : List Byte) (k : Nat) : Byte := s.getD k 0

/-- hlen: the number of header bytes after the length byte (43 R230). -/
def hlen : MavVer → Nat
  | .v1 => 4
  | .v2 => 8

/-- The sync byte that selects a header format (43 R231, R232). -/
def syncOf : MavVer → Byte
  | .v1 => syncV1
  | .v2 => syncV2

/-- The header format a header belongs to: flag bytes exist in v2 only (43 R244). -/
def headerVer (h : MavHeader) : MavVer := if h.flags.isSome then .v2 else .v1

/-- The header fields of a completed frame from its stored header bytes (43 R244). -/
def headerOf (ver : MavVer) (hdr : List Byte) : MavHeader :=
  match ver with
  | .v1 => { flags := none, seq := byteAt hdr 0, sysid := byteAt hdr 1, compid := byteAt hdr 2 }
  | .v2 => { flags := some (byteAt hdr 0, byteAt hdr 1), seq := byteAt hdr 2, sysid := byteAt hdr 3, compid := byteAt hdr 4 }

/-- The message id of a completed frame (30 R97, 43 R244). -/
def msgIdOf (ver : MavVer) (hdr : List Byte) : MsgId :=
  match ver with
  | .v1 => (byteAt hdr 3).setWidth 24
  | .v2 => le24 (byteAt hdr 5) (byteAt hdr 6) (byteAt hdr 7)

/-- The header bytes after the length byte, as they stand on the wire (30 R95, R96). -/
def headerBytes (h : MavHeader) (id : MsgId) : List Byte :=
  match h.flags with
  | none => [h.seq, h.sysid, h.compid, byteOf id 0]
  | some (incompat, compat) => [incompat, compat, h.seq, h.sysid, h.compid, byteOf id 0, byteOf id 1, byteOf id 2]

/-- The 96-bit bus layout, rt in the high bits and buttons in bits 15:0 (10 R43). -/
def toBus (s : GamepadState) : BusWord :=
  (s.rt ++ s.lt ++ s.ry ++ s.rx ++ s.ly ++ s.lx ++ s.buttons : BitVec 96)

/-- The GamepadState on a 96-bit bus (10 R43). -/
def ofBus (w : BusWord) : GamepadState :=
  { buttons := w.extractLsb' 0 16, lx := w.extractLsb' 16 16, ly := w.extractLsb' 32 16, rx := w.extractLsb' 48 16,
    ry := w.extractLsb' 64 16, lt := w.extractLsb' 80 8, rt := w.extractLsb' 88 8 }

end Sys2Proof.Machine
end

