-- ==== Sys2Proof/Machine/Checksum.lean ====
section
/-! DEFINITION. The three integrity checks: xor8 (40 R131), CRC-8 (41 R176, R177), CRC-16/MCRF4XX (43 R238 to R240). -/

namespace Sys2Proof.Machine

/-- xor8: the exclusive-or of all bytes, 0 for none (40 R131). -/
def xor8 (s : List Byte) : Byte := s.foldl (· ^^^ ·) 0

/-- One bit of the CRC-8, most significant bit first, polynomial 0xD5 (41 R176). -/
def crc8Shift (c : Byte) : Byte := if c.msb then (c <<< 1) ^^^ 0xD5 else c <<< 1

/-- crc8_update (41 R176). -/
def crc8Update (c b : Byte) : Byte := Nat.repeat crc8Shift 8 (c ^^^ b)

/-- crc8: initial value 0 (41 R177). -/
def crc8 (s : List Byte) : Byte := s.foldl crc8Update 0

/-- One bit of the CRC-16, least significant bit first, reflected polynomial 0x8408 (43 R238). -/
def crc16Shift (c : Half) : Half := if c.getLsbD 0 then (c >>> 1) ^^^ 0x8408 else c >>> 1

/-- crc16_update: the byte enters the low byte (43 R238). -/
def crc16Update (c : Half) (b : Byte) : Half := Nat.repeat crc16Shift 8 (c ^^^ b.setWidth 16)

/-- crc16: initial value 0xFFFF (43 R239). -/
def crc16 (s : List Byte) : Half := s.foldl crc16Update 0xFFFF

/-- frame_crc: the covered bytes followed by the CRC-extra byte; the length byte stands in front when MAV_CRC_COVERS_LEN (43 R240). -/
def frameCrc (coversLen : Bool) (len : Byte) (hdr pay : List Byte) (extra : Byte) : Half :=
  crc16 ((if coversLen then [len] else []) ++ hdr ++ pay ++ [extra])

end Sys2Proof.Machine
end

