-- ==== Sys2Proof/Syntax.lean ====
section
/-! DEFINITION. The instructions: one constructor for each row of spec/opcode_table.json, in the table's order. -/

namespace Sys2Proof

/-- The rows of the opcode table with their operands. Frames carry what their wire format holds beyond fixed and computed bytes. -/
inductive Instr where
  /-- TXT.G, full-state line; `rest` is the body after the tag (40 R140). -/
  | txtG (rest : List Byte)
  /-- TXT.U.B; `val` is the body after the colon (40 R142). -/
  | txtUB (val : List Byte)
  /-- TXT.U.LX (40 R143). -/
  | txtULX (val : List Byte)
  /-- TXT.U.LY (40 R144). -/
  | txtULY (val : List Byte)
  /-- TXT.U.RX (40 R145). -/
  | txtURX (val : List Byte)
  /-- TXT.U.RY (40 R146). -/
  | txtURY (val : List Byte)
  /-- TXT.U.LT (40 R147). -/
  | txtULT (val : List Byte)
  /-- TXT.U.RT (40 R148). -/
  | txtURT (val : List Byte)
  /-- TXT.BYTE, a byte other than a newline (40 R150). -/
  | txtByte (b : Byte)
  /-- TXT.LF, the newline (40 R149). -/
  | txtLf
  /-- CRSF.SYNC (41 R171). -/
  | crsfSync (b : Byte)
  /-- CRSF.SKIP (41 R172). -/
  | crsfSkip (b : Byte)
  /-- CRSF.LEN (41 R173 to R175). -/
  | crsfLen (b : Byte)
  /-- CRSF.ACC (41 R178). -/
  | crsfAcc (b : Byte)
  /-- CRSF.CRC (41 R179, R180). -/
  | crsfCrc (b : Byte)
  /-- CRSF.RC (42 R201, R205). -/
  | crsfRc (payload : List Byte)
  /-- CRSF.TELEM (42 R203). -/
  | crsfTelem (type : Byte) (payload : List Byte)
  /-- CRSF.UNKNOWN (42 R204). -/
  | crsfUnknown (type : Byte) (payload : List Byte)
  /-- MAV.SYNC1 (43 R231). -/
  | mavSync1
  /-- MAV.SYNC2 (43 R232). -/
  | mavSync2
  /-- MAV.SKIP (43 R233). -/
  | mavSkip (b : Byte)
  /-- MAV.LEN (43 R234). -/
  | mavLen (b : Byte)
  /-- MAV.HDR (43 R235). -/
  | mavHdr (b : Byte)
  /-- MAV.PAY (43 R236). -/
  | mavPay (b : Byte)
  /-- MAV.CRCLO (43 R237). -/
  | mavCrcLo (b : Byte)
  /-- MAV.CRCHI (43 R241 to R243). -/
  | mavCrcHi (b : Byte)
  /-- MAV.HEARTBEAT (44 R271). -/
  | mavHeartbeat (h : MavHeader) (payload : List Byte)
  /-- MAV.MANUAL_CONTROL (44 R272). -/
  | mavManualControl (h : MavHeader) (payload : List Byte)
  /-- MAV.UNKNOWN; `crc` is the received CRC, unchecked for an id outside MAV_EXTRA (43 R243). -/
  | mavUnknown (h : MavHeader) (msgid : MsgId) (payload : List Byte) (crc : Half)
  /-- MBOX.PUBLISH (45 R301). -/
  | mboxPublish (s : GamepadState)
  /-- MBOX.TAKE (45 R302). -/
  | mboxTake
  /-- IN.RX (45 R305). -/
  | inRx (b : Byte)
  /-- IN.RXERR (45 R306). -/
  | inRxErr
  /-- OUT.WAKE (45 R307). -/
  | outWake
  /-- OUT.READY (45 R308). -/
  | outReady
  /-- OUT.DONE (45 R309, R310). -/
  | outDone (ok : Bool)
  deriving DecidableEq, Repr

end Sys2Proof
end

