-- ==== Sys2Proof/WellFormed.lean ====
section
/-! DEFINITION. Which instructions have an encoding under a configuration: each operand at every value its encoding admits. -/

namespace Sys2Proof

open Machine

/-- A text line of `tagLen` leading bytes, these operand bytes and the four bytes after them: no newline inside, and the bytes
before the newline fit the line buffer (40 R149, R150). -/
def wfLine (c : Config) (tagLen : Nat) (operand : List Byte) : Bool :=
  !operand.contains chLf && decide (tagLen + operand.length + 3 ≤ c.textLineMax - 1)

/-- A CRSF payload whose declared length is legal (30 R92). -/
def wfCrsfPayload (c : Config) (payload : List Byte) : Bool :=
  decide (payload.length + 2 ≤ c.crsfMaxLen ∧ payload.length + 2 ≤ 255)

/-- A MAVLink payload length fits its byte, and the id of a v1 frame fits its byte (30 R95, R96). -/
def wfMav (h : MavHeader) (id : MsgId) (payload : List Byte) : Bool :=
  decide (payload.length ≤ 255) && (h.flags.isSome || decide (id.toNat < 256))

/-- The instruction has an encoding under the configuration (30 R91 to R105, R111). -/
def Instr.wf (c : Config) : Instr → Bool
  | .txtG rest => wfLine c 1 rest
  | .txtUB val => wfLine c 3 val
  | .txtULX val => wfLine c 4 val
  | .txtULY val => wfLine c 4 val
  | .txtURX val => wfLine c 4 val
  | .txtURY val => wfLine c 4 val
  | .txtULT val => wfLine c 4 val
  | .txtURT val => wfLine c 4 val
  | .txtByte b => b != chLf
  | .txtLf => true
  | .crsfSync b => c.crsfSync.contains b
  | .crsfSkip b => !c.crsfSync.contains b
  | .crsfLen _ => true
  | .crsfAcc _ => true
  | .crsfCrc _ => true
  | .crsfRc payload => wfCrsfPayload c payload
  | .crsfTelem type payload => wfCrsfPayload c payload && type != c.crsfTypeRc && c.crsfKnownTelem.contains type
  | .crsfUnknown type payload => wfCrsfPayload c payload && type != c.crsfTypeRc && !c.crsfKnownTelem.contains type
  | .mavSync1 => true
  | .mavSync2 => true
  | .mavSkip b => b != syncV1 && b != syncV2
  | .mavLen _ => true
  | .mavHdr _ => true
  | .mavPay _ => true
  | .mavCrcLo _ => true
  | .mavCrcHi _ => true
  | .mavHeartbeat h payload => wfMav h 0 payload && (c.extra 0).isSome
  | .mavManualControl h payload => wfMav h 69 payload && (c.extra 69).isSome
  | .mavUnknown h id payload crc =>
    wfMav h id payload &&
      (match c.extra id with
      | none => true
      | some e => id != 0 && id != 69 &&
          crc == frameCrc c.mavCrcCoversLen (BitVec.ofNat 8 payload.length) (headerBytes h id) payload e)
  | .mboxPublish _ => true
  | .mboxTake => true
  | .inRx _ => true
  | .inRxErr => true
  | .outWake => true
  | .outReady => true
  | .outDone _ => true

end Sys2Proof
end

