-- ==== Sys2Proof/Decode.lean ====
section
/-! DEFINITION. The decoder: from the four encodings of the spec (30 R90) to the instruction, total on any bytes, rejecting by name;
and after it the encoder. The parsers of the machine select their rules with the functions of this file. -/

namespace Sys2Proof

open Machine

/-- Where a received byte finds the selected parser: what selects its byte-step row beside the byte (30 R111, 10 R37). -/
inductive ByteCtx where
  | text
  | crsf (st : CrsfSt)
  | mav (st : MavSt)
  deriving DecidableEq, Repr

/-- The strobe an event stands on (30 R108): the internal pair publish and take, rx_valid, rx_err, the level mbox.has_new,
snk_ready, snk_done. -/
inductive PortLine where
  | mbox
  | rx
  | rxErr
  | hasNew
  | snkReady
  | snkDone
  deriving DecidableEq, Repr

/-- An encoded instruction (30 R90): a text line, a whole CRSF or MAVLink frame, one received byte in a parser's state, or a strobe
with the data beside it. -/
inductive Code where
  | line (bytes : List Byte)
  | crsf (bytes : List Byte)
  | mav (bytes : List Byte)
  | byte (ctx : ByteCtx) (b : Byte)
  | port (line : PortLine) (strobe : BitVec 2) (data : BusWord)
  deriving DecidableEq, Repr

/-- Why a code is no instruction: a reject of the spec; a first byte that is no sync byte; a frame shorter or longer than it declares;
a strobe that is not set; both internal strobes at once, which are two instructions (45 R304). -/
inductive DecodeError where
  | reject (code : RejectCode)
  | noSync
  | truncated
  | trailing
  | idle
  | bothStrobes
  deriving DecidableEq, Repr

/-- The field code before the colon of an update line (30 R103). -/
def fieldCode : LineKind → List Byte
  | .full => []
  | .b => [chB]
  | .lx => [chL, chX]
  | .ly => [chL, chY]
  | .rx => [chR, chX]
  | .ry => [chR, chY]
  | .lt => [chL, chT]
  | .rt => [chR, chT]

/-- The update kind of a field code, none when it is not one of the seven (40 R141). -/
def kindOfCode (code : List Byte) : Option LineKind :=
  if code = [chB] then some .b
  else if code = [chL, chX] then some .lx
  else if code = [chL, chY] then some .ly
  else if code = [chR, chX] then some .rx
  else if code = [chR, chY] then some .ry
  else if code = [chL, chT] then some .lt
  else if code = [chR, chT] then some .rt
  else none

/-- The bytes before and after the first colon, none without a colon (40 R141). -/
def breakColon : List Byte → Option (List Byte × List Byte)
  | [] => none
  | b :: s => if b = chColon then some ([], s) else (breakColon s).map fun p => (b :: p.1, p.2)

/-- Check 5 and the common part of the update family: the kind of a body and the operand bytes after its tag or colon
(40 R137, R141). -/
def splitBody : List Byte → Except RejectCode (LineKind × List Byte)
  | [] => .error .txtUnknownTag
  | tag :: rest =>
    if tag = chG then .ok (.full, rest)
    else if tag = chU then
      match breakColon rest with
      | none => .error .txtMalformedField
      | some (code, val) =>
        match kindOfCode code with
        | none => .error .txtUnknownFieldCode
        | some k => .ok (k, val)
    else .error .txtUnknownTag

/-- Checks 1 to 5 of a line in their order: terminator, star, checksum digits, checksum value, tag (40 R132 to R137). -/
def splitLine (line : List Byte) : Except RejectCode (LineKind × List Byte) :=
  let n := line.length
  if n = 0 ∨ byteAt line (n - 1) ≠ chLf then .error .txtMissingNewline
  else if n < 4 ∨ byteAt line (n - 4) ≠ chStar then .error .txtMissingStar
  else
    match hexVal (byteAt line (n - 3)), hexVal (byteAt line (n - 2)) with
    | some h1, some h0 =>
      let body := line.take (n - 4)
      if xor8 body ≠ BitVec.ofNat 8 (16 * h1 + h0) then .error .txtChecksumMismatch else splitBody body
    | _, _ => .error .txtBadChecksumField

/-- The text row of a line kind (30 R111). -/
def lineInstr : LineKind → List Byte → Instr
  | .full, rest => .txtG rest
  | .b, val => .txtUB val
  | .lx, val => .txtULX val
  | .ly, val => .txtULY val
  | .rx, val => .txtURX val
  | .ry, val => .txtURY val
  | .lt, val => .txtULT val
  | .rt, val => .txtURT val

/-- A whole text line (30 R101). -/
def decodeLine (line : List Byte) : Except DecodeError Instr :=
  match splitLine line with
  | .error c => .error (.reject c)
  | .ok (k, operand) => .ok (lineInstr k operand)

/-- The class of a CRSF type byte (30 R93, 42 R200). -/
def crsfClassify (c : Config) (type : Byte) : CrsfClass :=
  if type = c.crsfTypeRc then .rc else if c.crsfKnownTelem.contains type then .telem else .unknown

/-- The frame row of a validated CRSF frame (30 R111, 42 R200). -/
def crsfInstr (c : Config) (type : Byte) (payload : List Byte) : Instr :=
  match crsfClassify c type with
  | .rc => .crsfRc payload
  | .telem => .crsfTelem type payload
  | .unknown => .crsfUnknown type payload

/-- A whole CRSF frame: sync, length, type and payload, CRC (30 R91, R92). -/
def decodeCrsf (c : Config) : List Byte → Except DecodeError Instr
  | [] => .error .truncated
  | sync :: rest =>
    if c.crsfSync.contains sync then
      match rest with
      | [] => .error .truncated
      | len :: body =>
        if c.crsfMaxLen < len.toNat then .error (.reject .crsfOverLength)
        else if len.toNat < 2 then .error (.reject .crsfUnderLength)
        else if body.length < len.toNat then .error .truncated
        else if len.toNat < body.length then .error .trailing
        else if byteAt body (len.toNat - 1) ≠ crc8 (body.take (len.toNat - 1)) then .error (.reject .crsfCrcMismatch)
        else .ok (crsfInstr c (byteAt body 0) ((body.take (len.toNat - 1)).drop 1))
    else .error .noSync

/-- What a completed MAVLink frame is: the id is classified first, a known id is then CRC-checked, an unknown one is ignored
unchecked; a known id other than 0 and 69 is ignored (43 R241 to R243, 44 R270, 60 R347). -/
def mavClassify (c : Config) (ver : MavVer) (len : Byte) (hdr pay : List Byte) (crc : Half) : Except RejectCode MavClass :=
  match c.extra (msgIdOf ver hdr) with
  | none => .ok .ignored
  | some e =>
    if crc ≠ frameCrc c.mavCrcCoversLen len hdr pay e then .error .mavCrcMismatch
    else if msgIdOf ver hdr = 0 then .ok .heartbeat
    else if msgIdOf ver hdr = 69 then .ok .manualControl
    else .ok .ignored

/-- The frame row of a completed MAVLink frame (30 R111). -/
def mavInstr (cls : MavClass) (ver : MavVer) (hdr pay : List Byte) (crc : Half) : Instr :=
  match cls with
  | .heartbeat => .mavHeartbeat (headerOf ver hdr) pay
  | .manualControl => .mavManualControl (headerOf ver hdr) pay
  | .ignored => .mavUnknown (headerOf ver hdr) (msgIdOf ver hdr) pay crc

/-- The part of a MAVLink frame after its sync byte: length, header, payload, CRC low, CRC high (30 R95, R96). -/
def decodeMavBody (c : Config) (ver : MavVer) : List Byte → Except DecodeError Instr
  | [] => .error .truncated
  | len :: body =>
    let n := hlen ver + len.toNat
    if body.length < n + 2 then .error .truncated
    else if n + 2 < body.length then .error .trailing
    else
      let hdr := body.take (hlen ver)
      let pay := (body.drop (hlen ver)).take len.toNat
      let crc := le16 (byteAt body n) (byteAt body (n + 1))
      match mavClassify c ver len hdr pay crc with
      | .error r => .error (.reject r)
      | .ok cls => .ok (mavInstr cls ver hdr pay crc)

/-- A whole MAVLink frame, its format selected by the sync byte (30 R95, R96). -/
def decodeMav (c : Config) : List Byte → Except DecodeError Instr
  | [] => .error .truncated
  | sync :: rest =>
    if sync = syncV1 then decodeMavBody c .v1 rest
    else if sync = syncV2 then decodeMavBody c .v2 rest
    else .error .noSync

/-- The byte-step row a received byte selects (30 R111, 40 R151, 41 R185, 43 R248). -/
def byteInstr (c : Config) (ctx : ByteCtx) (b : Byte) : Instr :=
  match ctx with
  | .text => if b = chLf then .txtLf else .txtByte b
  | .crsf .awaitSync => if c.crsfSync.contains b then .crsfSync b else .crsfSkip b
  | .crsf .awaitLength => .crsfLen b
  | .crsf .accumulatePayload => .crsfAcc b
  | .crsf .awaitCrc => .crsfCrc b
  | .mav .awaitSync => if b = syncV1 then .mavSync1 else if b = syncV2 then .mavSync2 else .mavSkip b
  | .mav .awaitLength => .mavLen b
  | .mav .accumulateHeader => .mavHdr b
  | .mav .accumulatePayload => .mavPay b
  | .mav .awaitCrcLow => .mavCrcLo b
  | .mav .awaitCrcHigh => .mavCrcHi b

/-- A strobe and the data beside it; the internal strobes are the vector publish, take (30 R108). -/
def decodePort (line : PortLine) (strobe : BitVec 2) (data : BusWord) : Except DecodeError Instr :=
  match line with
  | .mbox =>
    if strobe.getLsbD 1 then (if strobe.getLsbD 0 then .error .bothStrobes else .ok (.mboxPublish (ofBus data)))
    else if strobe.getLsbD 0 then .ok .mboxTake
    else .error .idle
  | .rx => if strobe.getLsbD 0 then .ok (.inRx (byteOf data 0)) else .error .idle
  | .rxErr => if strobe.getLsbD 0 then .ok .inRxErr else .error .idle
  | .hasNew => if strobe.getLsbD 0 then .ok .outWake else .error .idle
  | .snkReady => if strobe.getLsbD 0 then .ok .outReady else .error .idle
  | .snkDone => if strobe.getLsbD 0 then .ok (.outDone (data.getLsbD 0)) else .error .idle

/-- The decoder. -/
def decode (c : Config) : Code → Except DecodeError Instr
  | .line bytes => decodeLine bytes
  | .crsf bytes => decodeCrsf c bytes
  | .mav bytes => decodeMav c bytes
  | .byte ctx b => .ok (byteInstr c ctx b)
  | .port line strobe data => decodePort line strobe data

/-- A line from its body: star, checksum, newline (30 R101, R105; 40 R154). -/
def lineOf (body : List Byte) : List Byte := body ++ [chStar] ++ hex2 (xor8 body) ++ [chLf]

/-- The body of an update line (30 R103). -/
def updateBody (k : LineKind) (val : List Byte) : List Byte := [chU] ++ fieldCode k ++ [chColon] ++ val

/-- A CRSF frame from its type and payload (30 R91, R110). -/
def crsfFrameOf (sync type : Byte) (payload : List Byte) : List Byte :=
  [sync, BitVec.ofNat 8 (payload.length + 2), type] ++ payload ++ [crc8 (type :: payload)]

/-- A MAVLink frame from its header, id, payload and CRC (30 R95, R96, R98). -/
def mavFrameOf (h : MavHeader) (id : MsgId) (payload : List Byte) (crc : Half) : List Byte :=
  [syncOf (headerVer h), BitVec.ofNat 8 payload.length] ++ headerBytes h id ++ payload ++ [byteOf crc 0, byteOf crc 1]

/-- The correct CRC of a MAVLink frame with a known id (43 R240). -/
def crcFor (c : Config) (h : MavHeader) (id : MsgId) (payload : List Byte) : Half :=
  frameCrc c.mavCrcCoversLen (BitVec.ofNat 8 payload.length) (headerBytes h id) payload ((c.extra id).getD 0)

/-- The encoder: the code of a well-formed instruction (30 R91 to R105, R108, R111). A CRSF frame starts with the first member of
CRSF_SYNC. -/
def encode (c : Config) : Instr → Code
  | .txtG rest => .line (lineOf (chG :: rest))
  | .txtUB val => .line (lineOf (updateBody .b val))
  | .txtULX val => .line (lineOf (updateBody .lx val))
  | .txtULY val => .line (lineOf (updateBody .ly val))
  | .txtURX val => .line (lineOf (updateBody .rx val))
  | .txtURY val => .line (lineOf (updateBody .ry val))
  | .txtULT val => .line (lineOf (updateBody .lt val))
  | .txtURT val => .line (lineOf (updateBody .rt val))
  | .txtByte b => .byte .text b
  | .txtLf => .byte .text chLf
  | .crsfSync b => .byte (.crsf .awaitSync) b
  | .crsfSkip b => .byte (.crsf .awaitSync) b
  | .crsfLen b => .byte (.crsf .awaitLength) b
  | .crsfAcc b => .byte (.crsf .accumulatePayload) b
  | .crsfCrc b => .byte (.crsf .awaitCrc) b
  | .crsfRc payload => .crsf (crsfFrameOf (byteAt c.crsfSync 0) c.crsfTypeRc payload)
  | .crsfTelem type payload => .crsf (crsfFrameOf (byteAt c.crsfSync 0) type payload)
  | .crsfUnknown type payload => .crsf (crsfFrameOf (byteAt c.crsfSync 0) type payload)
  | .mavSync1 => .byte (.mav .awaitSync) syncV1
  | .mavSync2 => .byte (.mav .awaitSync) syncV2
  | .mavSkip b => .byte (.mav .awaitSync) b
  | .mavLen b => .byte (.mav .awaitLength) b
  | .mavHdr b => .byte (.mav .accumulateHeader) b
  | .mavPay b => .byte (.mav .accumulatePayload) b
  | .mavCrcLo b => .byte (.mav .awaitCrcLow) b
  | .mavCrcHi b => .byte (.mav .awaitCrcHigh) b
  | .mavHeartbeat h payload => .mav (mavFrameOf h 0 payload (crcFor c h 0 payload))
  | .mavManualControl h payload => .mav (mavFrameOf h 69 payload (crcFor c h 69 payload))
  | .mavUnknown h id payload crc => .mav (mavFrameOf h id payload crc)
  | .mboxPublish s => .port .mbox 0b10 (toBus s)
  | .mboxTake => .port .mbox 0b01 0
  | .inRx b => .port .rx 1 (b.setWidth 96)
  | .inRxErr => .port .rxErr 1 0
  | .outWake => .port .hasNew 1 0
  | .outReady => .port .snkReady 1 0
  | .outDone ok => .port .snkDone 1 ((BitVec.ofBool ok).setWidth 96)

/-- The neutral operand of a text row: zero in every field, the digit 0x30 and the colon 0x3A (30 R102, R103). -/
def neutralField : LineKind → List Byte
  | .full => [0x30, 0x30, 0x30, 0x30, 0x3A, 0x30, 0x3A, 0x30, 0x3A, 0x30, 0x3A, 0x30, 0x3A, 0x30, 0x3A, 0x30]
  | .b => [0x30, 0x30, 0x30, 0x30]
  | .lx => [0x30]
  | .ly => [0x30]
  | .rx => [0x30]
  | .ry => [0x30]
  | .lt => [0x30]
  | .rt => [0x30]

/-- The code an opcode-table word stands for, read with the table's fixed patterns, those with a mask before those without: the
table's number is the tag and field code of a line with the first byte most significant, the type byte of a CRSF frame, the message
id of a MAVLink frame, a received byte, or a strobe. Operands the table gives no bits are neutral (log 15). -/
def tableCode (c : Config) (nbits w : Nat) : Option Code :=
  if nbits = 8 then
    if w = 0x47 then some (encode c (.txtG (neutralField .full)))
    else if w = 0x0A then some (.byte .text chLf)
    else if w = 0xC8 then some (.byte (.crsf .awaitSync) (BitVec.ofNat 8 w))
    else if w = 0x16 then some (.crsf (crsfFrameOf (byteAt c.crsfSync 0) (BitVec.ofNat 8 w) (List.replicate 22 0)))
    else if w = 0x08 ∨ w = 0x0B ∨ w = 0x14 then some (.crsf (crsfFrameOf (byteAt c.crsfSync 0) (BitVec.ofNat 8 w) []))
    else if w = 0xFE ∨ w = 0xFD then some (.byte (.mav .awaitSync) (BitVec.ofNat 8 w))
    else if w = 0b10 then some (.port .mbox 0b10 0)
    else if w = 0b01 then some (.port .rx 1 0)
    else some (.byte .text (BitVec.ofNat 8 w))
  else if nbits = 24 then
    if w = 0x55423A then some (encode c (.txtUB (neutralField .b)))
    else
      let h : MavHeader := ⟨some (0, 0), 0, 0, 0⟩
      some (.mav (mavFrameOf h (BitVec.ofNat 24 w) [] (crcFor c h (BitVec.ofNat 24 w) [])))
  else if nbits = 32 then
    if w = 0x554C583A then some (encode c (.txtULX (neutralField .lx)))
    else if w = 0x554C593A then some (encode c (.txtULY (neutralField .ly)))
    else if w = 0x5552583A then some (encode c (.txtURX (neutralField .rx)))
    else if w = 0x5552593A then some (encode c (.txtURY (neutralField .ry)))
    else if w = 0x554C543A then some (encode c (.txtULT (neutralField .lt)))
    else if w = 0x5552543A then some (encode c (.txtURT (neutralField .rt)))
    else none
  else none

/-- The instruction the decoder reads from an opcode-table word, under the decided parameters of 00 R5. -/
def decodeTableWord (nbits w : Nat) : Option Instr :=
  match tableCode (defaultConfig .text) nbits w with
  | none => none
  | some code => (decode (defaultConfig .text) code).toOption

end Sys2Proof
end

