-- ==== Sys2Proof/Machine/Operands.lean ====
section
/-! DEFINITION. The operand forms: decimal and hexadecimal text fields, parse of a text line, packed CRSF channels, MANUAL_CONTROL
payload fields (40 R138 to R148, R153; 42 R202; 44 R272). -/

namespace Sys2Proof.Machine

/-- The value of decimal digits after the digits already read, none at a byte that is no digit (40 R138). -/
def digitsVal (acc : Nat) : List Byte → Option Nat
  | [] => some acc
  | b :: s =>
    match decVal b with
    | none => none
    | some d => digitsVal (10 * acc + d) s

/-- parse_dec: an optional minus sign and one or more digits; none is malformed (40 R138). -/
def parseDec : List Byte → Option Int
  | [] => none
  | b :: s =>
    if b = chMinus then (if s = [] then none else (digitsVal 0 s).map fun m => -(m : Int))
    else (digitsVal 0 (b :: s)).map fun m => (m : Int)

/-- parse_hex4: exactly four hexadecimal digits, most significant first; none is malformed (40 R139). -/
def parseHex4 : List Byte → Option Nat
  | [d3, d2, d1, d0] =>
    match hexVal d3, hexVal d2, hexVal d1, hexVal d0 with
    | some v3, some v2, some v1, some v0 => some (4096 * v3 + 256 * v2 + 16 * v1 + v0)
    | _, _, _, _ => none
  | _ => none

/-- The runs between colons, empty ones included: k colons give k + 1 fields (40 R140). -/
def splitFields : List Byte → List (List Byte)
  | [] => [[]]
  | b :: s =>
    if b = chColon then [] :: splitFields s
    else
      match splitFields s with
      | [] => [[b]]
      | f :: fs => (b :: f) :: fs

/-- A value in a stick axis's range (40 R140, R143). -/
def stickInRange (v : Int) : Bool := decide (-32768 ≤ v ∧ v ≤ 32767)

/-- A value in a trigger's range (40 R140, R147). -/
def triggerInRange (v : Int) : Bool := decide (0 ≤ v ∧ v ≤ 255)

/-- The fields of a full-state line: field count and every field's syntax are checked before any range (40 R140, 60 R345). -/
def parseFull (rest : List Byte) : Except RejectCode GamepadState :=
  match splitFields rest with
  | [f0, f1, f2, f3, f4, f5, f6] =>
    match parseHex4 f0, parseDec f1, parseDec f2, parseDec f3, parseDec f4, parseDec f5, parseDec f6 with
    | some b, some lx, some ly, some rx, some ry, some lt, some rt =>
      if stickInRange lx && stickInRange ly && stickInRange rx && stickInRange ry && triggerInRange lt && triggerInRange rt then
        .ok { buttons := BitVec.ofNat 16 b, lx := BitVec.ofInt 16 lx, ly := BitVec.ofInt 16 ly, rx := BitVec.ofInt 16 rx,
              ry := BitVec.ofInt 16 ry, lt := BitVec.ofInt 8 lt, rt := BitVec.ofInt 8 rt }
      else .error .txtOutOfRange
    | _, _, _, _, _, _, _ => .error .txtMalformedField
  | _ => .error .txtMalformedField

/-- The value of a button update (40 R142). -/
def parseButtons (val : List Byte) : Except RejectCode Half :=
  match parseHex4 val with
  | none => .error .txtMalformedField
  | some v => .ok (BitVec.ofNat 16 v)

/-- The value of a stick update (40 R143). -/
def parseStick (val : List Byte) : Except RejectCode Half :=
  match parseDec val with
  | none => .error .txtMalformedField
  | some v => if stickInRange v then .ok (BitVec.ofInt 16 v) else .error .txtOutOfRange

/-- The value of a trigger update (40 R147). -/
def parseTrigger (val : List Byte) : Except RejectCode Byte :=
  match parseDec val with
  | none => .error .txtMalformedField
  | some v => if triggerInRange v then .ok (BitVec.ofInt 8 v) else .error .txtOutOfRange

/-- Check 6: the message of a line from its kind and operand bytes (40 R140 to R148). -/
def lineValue (k : LineKind) (operand : List Byte) : Except RejectCode LineMsg :=
  match k with
  | .full => (parseFull operand).map fun g => .full g
  | .b => (parseButtons operand).map fun v => .update (.buttons v)
  | .lx => (parseStick operand).map fun v => .update (.leftStickX v)
  | .ly => (parseStick operand).map fun v => .update (.leftStickY v)
  | .rx => (parseStick operand).map fun v => .update (.rightStickX v)
  | .ry => (parseStick operand).map fun v => .update (.rightStickY v)
  | .lt => (parseTrigger operand).map fun v => .update (.leftTrigger v)
  | .rt => (parseTrigger operand).map fun v => .update (.rightTrigger v)

/-- parse(line): the first reject of checks 1 to 6, or the message (40 R132). -/
def parse (line : List Byte) : Except RejectCode LineMsg :=
  match splitLine line with
  | .error c => .error c
  | .ok (k, operand) => lineValue k operand

/-- merge(h, u): h with the one field of u replaced (40 R153). -/
def merge (h : GamepadState) : FieldUpdate → GamepadState
  | .buttons v => { h with buttons := v }
  | .leftStickX v => { h with lx := v }
  | .leftStickY v => { h with ly := v }
  | .rightStickX v => { h with rx := v }
  | .rightStickY v => { h with ry := v }
  | .leftTrigger v => { h with lt := v }
  | .rightTrigger v => { h with rt := v }

/-- The held state after an accepted line (40 R152, R153). -/
def heldAfter (h : GamepadState) : LineMsg → GamepadState
  | .full g => g
  | .update u => merge h u

/-- The output event of an accepted line (10 R26). -/
def lineEvent : LineMsg → OutEvent
  | .full g => .fullState g
  | .update u => .update u

/-- The bytes of a sequence as one integer, the first least significant (30 R94, 42 R202). -/
def leNat : List Byte → Nat
  | [] => 0
  | b :: s => b.toNat + 256 * leNat s

/-- unpack(p): lane i is bits 11i+10 to 11i of the little-endian integer (42 R202). -/
def unpack (p : List Byte) : Vector Channel 16 :=
  Vector.ofFn fun i => BitVec.ofNat 11 (leNat p >>> (11 * i.val))

/-- The sum of the lanes at their places, lane i shifted left by 11i (42 R202). -/
def packNat (ch : Vector Channel 16) : Nat :=
  ch.toList.foldr (fun c n => c.toNat + 2048 * n) 0

/-- pack(ch): the packed integer as 22 little-endian bytes (42 R202). -/
def pack (ch : Vector Channel 16) : List Byte :=
  (List.range 22).map fun k => BitVec.ofNat 8 (packNat ch >>> (8 * k))

/-- The fields of a MANUAL_CONTROL payload, zero-extended to 13 bytes, the rest ignored (44 R272, 30 R99). -/
def manualFields (payload : List Byte) : ManualFields :=
  let q := byteAt payload
  { x := le16 (q 0) (q 1), y := le16 (q 2) (q 3), z := le16 (q 4) (q 5), r := le16 (q 6) (q 7), buttons := le16 (q 8) (q 9),
    target := q 10, buttons2 := le16 (q 11) (q 12) }

end Sys2Proof.Machine
end

