-- ==== Sys2Proof/Machine/Scaling.lean ====
section
/-! DEFINITION. The scaling datapaths, exact over the integers (00 R10): CRSF channels to a GamepadState (42 R206 to R209),
MANUAL_CONTROL to a GamepadState (44 R273 to R277). -/

namespace Sys2Proof.Machine

/-- clamp(v, lo, hi) (00 R10). -/
def clamp (v lo hi : Int) : Int := if v < lo then lo else if hi < v then hi else v

/-- rdiv(n, d): n/d rounded to the nearest integer, a tie rounded up (00 R10). -/
def rdiv (n d : Int) : Int := (2 * n + d) / (2 * d)

/-- lin: the clamped value, reflected about its range when inverted, scaled to 0..full (00 R10). -/
def lin (v lo hi : Int) (inv : Bool) (full : Int) : Int :=
  let c := clamp v lo hi
  let c' := if inv then lo + hi - c else c
  rdiv ((c' - lo) * full) (hi - lo)

/-- scale_stick (00 R10). -/
def scaleStick (v lo hi : Int) (inv : Bool) : Int := clamp (lin v lo hi inv 65535 - 32768) (-32768) 32767

/-- scale_trigger (00 R10). -/
def scaleTrigger (v lo hi : Int) (inv : Bool) : Int := clamp (lin v lo hi inv 255) 0 255

/-- The lowest channel value of the scale (42 R206). -/
def chanMin : Int := 172
/-- The highest channel value of the scale (42 R206). -/
def chanMax : Int := 1811
/-- The midpoint at which a button channel is pressed (42 R209). -/
def chanMid : Nat := 992

/-- A stick axis from its channel, neutral without one (42 R207). -/
def stickOf (ch : Vector Channel 16) : Option ChannelSource → Half
  | none => 0
  | some src => BitVec.ofInt 16 (scaleStick (ch[src.ch].toNat : Int) chanMin chanMax src.inv)

/-- A trigger from its channel, neutral without one (42 R208). -/
def triggerOf (ch : Vector Channel 16) : Option ChannelSource → Byte
  | none => 0
  | some src => BitVec.ofInt 8 (scaleTrigger (ch[src.ch].toNat : Int) chanMin chanMax src.inv)

/-- A button bit from its channel: pressed at or above the midpoint, released without a channel (42 R209). -/
def pressed (ch : Vector Channel 16) : Option (Fin 16) → Bool
  | none => false
  | some c => decide (chanMid ≤ ch[c].toNat)

/-- channels_to_gamepad (42 R206). -/
def channelsToGamepad (ch : Vector Channel 16) (m : ChannelMapping) : GamepadState where
  buttons := BitVec.ofFnLE fun i => pressed ch m.buttons[i]
  lx := stickOf ch m.lx
  ly := stickOf ch m.ly
  rx := stickOf ch m.rx
  ry := stickOf ch m.ry
  lt := triggerOf ch m.lt
  rt := triggerOf ch m.rt

/-- A stick axis replaced. -/
def setAxis (g : GamepadState) (a : StickAxis) (v : Half) : GamepadState :=
  match a with
  | .lx => { g with lx := v }
  | .ly => { g with ly := v }
  | .rx => { g with rx := v }
  | .ry => { g with ry := v }

/-- A MANUAL_CONTROL axis applied to its target, dropped without one (44 R274). -/
def applyAxis (v : Half) (t : Option AxisTarget) (g : GamepadState) : GamepadState :=
  match t with
  | none => g
  | some t => setAxis g t.dst (BitVec.ofInt 16 (scaleStick v.toInt (-1000) 1000 t.inv))

/-- The left trigger of the split at z = 500 (44 R275). -/
def zLeft (z : Int) : Int := if clamp z 0 1000 ≤ 500 then rdiv ((500 - clamp z 0 1000) * 255) 500 else 0

/-- The right trigger of the split at z = 500 (44 R275). -/
def zRight (z : Int) : Int := if clamp z 0 1000 ≤ 500 then 0 else rdiv ((clamp z 0 1000 - 500) * 255) 500

/-- manual_control_to_gamepad: x, then y, then r, a later entry winning; z splits to the triggers; buttons2 is dropped
(44 R273 to R277, 10 R25). -/
def manualToGamepad (f : ManualFields) (m : AxisMapping) : GamepadState :=
  let g : GamepadState := { GamepadState.neutral with
    buttons := f.buttons, lt := BitVec.ofInt 8 (zLeft f.z.toInt), rt := BitVec.ofInt 8 (zRight f.z.toInt) }
  applyAxis f.r m.r (applyAxis f.y m.y (applyAxis f.x m.x g))

end Sys2Proof.Machine
end

