-- ==== Sys2Proof/Machine/Crsf.lean ====
section
/-! DEFINITION. The CRSF rows: the frame-state machine (41 R171 to R185) and what is done with a validated frame (42 R200 to R205).
A byte-step row runs in the state the spec selects it in, else it takes no step (41 R185; log 7). -/

namespace Sys2Proof.Machine

/-- The CRSF parser is present and its state register holds `st` (00 R3, 41 R185). -/
def crsfIn (s : State) (st : CrsfSt) : Bool := decide (s.cfg.protocol = .crsf) && decide (s.crsf.st = st)

/-- CRSF.RC: 22 payload bytes are unpacked, converted and published; any other size is rejected (42 R201, R205). -/
def execCrsfRc (payload : List Byte) (s : State) : Res :=
  if s.cfg.protocol = .crsf then
    if payload.length = 22 then
      let ch := unpack payload
      .next (publish (channelsToGamepad ch s.cfg.channelMap) (emit (.rcChannels ch) s))
    else .next (raiseReject .crsf .crsfBadPayloadLength s)
  else .next s

/-- CRSF.TELEM: the payload is passed on uninterpreted (42 R203). -/
def execCrsfTelem (type : Byte) (payload : List Byte) (s : State) : Res :=
  if s.cfg.protocol = .crsf ∧ crsfClassify s.cfg type = .telem then .next (emit (.telemetry type payload) s) else .next s

/-- CRSF.UNKNOWN: consumed and ignored (42 R204). -/
def execCrsfUnknown (type : Byte) (_payload : List Byte) (s : State) : Res :=
  if s.cfg.protocol = .crsf ∧ crsfClassify s.cfg type = .unknown then .next (emit (.ignoredType type) s) else .next s

/-- decode(type, payload): the frame row the type byte selects (42 R200). -/
def runCrsfFrame (type : Byte) (payload : List Byte) (s : State) : Res :=
  match crsfClassify s.cfg type with
  | .rc => execCrsfRc payload s
  | .telem => execCrsfTelem type payload s
  | .unknown => execCrsfUnknown type payload s

/-- CRSF.SYNC (41 R171). -/
def execCrsfSync (b : Byte) (s : State) : Res :=
  if crsfIn s .awaitSync ∧ s.cfg.crsfSync.contains b then .next (s.setCrsf { s.crsf with st := .awaitLength }) else .next s

/-- CRSF.SKIP: the byte is discarded, nothing is written (41 R172). -/
def execCrsfSkip (_b : Byte) (s : State) : Res := .next s

/-- CRSF.LEN: an over-length or under-length declaration is rejected, else the frame begins (41 R173 to R175). -/
def execCrsfLen (b : Byte) (s : State) : Res :=
  if crsfIn s .awaitLength then
    if s.cfg.crsfMaxLen < b.toNat then .next (raiseReject .crsf .crsfOverLength s)
    else if b.toNat < 2 then .next (raiseReject .crsf .crsfUnderLength s)
    else .next (s.setCrsf { s.crsf with len := b, idx := 0, st := .accumulatePayload })
  else .next s

/-- CRSF.ACC: the byte is stored; after crsf.len - 1 bytes the CRC is awaited (41 R178). -/
def execCrsfAcc (b : Byte) (s : State) : Res :=
  if crsfIn s .accumulatePayload then
    match s.memWrite .crsfBuf s.crsf.idx.toNat b with
    | none => .fault (.bufferIndex .crsfBuf)
    | some s1 =>
      .next (s1.setCrsf { s1.crsf with
        idx := s.crsf.idx + 1
        st := if s.crsf.idx.toNat + 1 = s.crsf.len.toNat - 1 then .awaitCrc else s.crsf.st })
  else .next s

/-- CRSF.CRC: the byte is stored and compared with the CRC of type and payload; on a match the framer returns to its scan state and
the frame is decoded, else the frame is rejected (41 R179, R180). -/
def execCrsfCrc (b : Byte) (s : State) : Res :=
  if crsfIn s .awaitCrc then
    match s.memRead .crsfBuf 0 (s.crsf.len.toNat - 1), s.memWrite .crsfBuf s.crsf.idx.toNat b with
    | some body, some s1 =>
      if b = crc8 body then runCrsfFrame (byteAt body 0) (body.drop 1) (toScan .crsf s1)
      else .next (raiseReject .crsf .crsfCrcMismatch s1)
    | _, _ => .fault (.bufferIndex .crsfBuf)
  else .next s

end Sys2Proof.Machine
end

