-- ==== Sys2Proof/Machine/Mavlink.lean ====
section
/-! DEFINITION. The MAVLink rows: the frame-state machine of both header formats (43 R231 to R248) and the two decoded messages
(44 R270 to R277). A byte-step row runs in the state the spec selects it in, else it takes no step (43 R248; log 7). -/

namespace Sys2Proof.Machine

/-- The MAVLink parser is present and its state register holds `st` (00 R3, 43 R248). -/
def mavIn (s : State) (st : MavSt) : Bool := decide (s.cfg.protocol = .mavlink) && decide (s.mav.st = st)

/-- MAV.HEARTBEAT: the event and the link_present pulse; the payload is ignored, nothing is published (44 R271). -/
def execMavHeartbeat (h : MavHeader) (_payload : List Byte) (s : State) : Res :=
  if s.cfg.protocol = .mavlink then .next (pulseLink (emit (.heartbeat h.sysid h.compid) s)) else .next s

/-- MAV.MANUAL_CONTROL: the payload is decoded, converted and published; no length is rejected (44 R272). -/
def execMavManualControl (_h : MavHeader) (payload : List Byte) (s : State) : Res :=
  if s.cfg.protocol = .mavlink then
    let f := manualFields payload
    .next (publish (manualToGamepad f s.cfg.axisMap) (emit (.manualControl f) s))
  else .next s

/-- MAV.UNKNOWN: consumed and ignored (43 R243). -/
def execMavUnknown (_h : MavHeader) (msgid : MsgId) (_payload : List Byte) (_crc : Half) (s : State) : Res :=
  if s.cfg.protocol = .mavlink then .next (emit (.ignoredMsg msgid) s) else .next s

/-- The frame row a completed frame selects (43 R241, R243; 44 R270). -/
def runMavFrame (cls : MavClass) (ver : MavVer) (hdr pay : List Byte) (crc : Half) (s : State) : Res :=
  match cls with
  | .heartbeat => execMavHeartbeat (headerOf ver hdr) pay s
  | .manualControl => execMavManualControl (headerOf ver hdr) pay s
  | .ignored => execMavUnknown (headerOf ver hdr) (msgIdOf ver hdr) pay crc s

/-- MAV.SYNC1 (43 R231). -/
def execMavSync1 (s : State) : Res :=
  if mavIn s .awaitSync then .next (s.setMav { s.mav with ver := .v1, st := .awaitLength }) else .next s

/-- MAV.SYNC2 (43 R232). -/
def execMavSync2 (s : State) : Res :=
  if mavIn s .awaitSync then .next (s.setMav { s.mav with ver := .v2, st := .awaitLength }) else .next s

/-- MAV.SKIP: the byte is discarded, nothing is written (43 R233). -/
def execMavSkip (_b : Byte) (s : State) : Res := .next s

/-- MAV.LEN: every length is accepted (43 R234). -/
def execMavLen (b : Byte) (s : State) : Res :=
  if mavIn s .awaitLength then .next (s.setMav { s.mav with len := b, hidx := 0, pidx := 0, st := .accumulateHeader }) else .next s

/-- MAV.HDR: the byte is stored; after hlen bytes the payload, or for length 0 the CRC, is awaited (43 R235). -/
def execMavHdr (b : Byte) (s : State) : Res :=
  if mavIn s .accumulateHeader then
    match s.memWrite .mavHdr s.mav.hidx b with
    | none => .fault (.bufferIndex .mavHdr)
    | some s1 =>
      .next (s1.setMav { s1.mav with
        hidx := s.mav.hidx + 1
        st := if s.mav.hidx + 1 = hlen s.mav.ver then (if 0 < s.mav.len.toNat then .accumulatePayload else .awaitCrcLow)
              else s.mav.st })
  else .next s

/-- MAV.PAY: the byte is stored; after mav.len bytes the CRC is awaited (43 R236). -/
def execMavPay (b : Byte) (s : State) : Res :=
  if mavIn s .accumulatePayload then
    match s.memWrite .mavPay s.mav.pidx b with
    | none => .fault (.bufferIndex .mavPay)
    | some s1 =>
      .next (s1.setMav { s1.mav with
        pidx := s.mav.pidx + 1
        st := if s.mav.pidx + 1 = s.mav.len.toNat then .awaitCrcLow else s.mav.st })
  else .next s

/-- MAV.CRCLO (43 R237). -/
def execMavCrcLo (b : Byte) (s : State) : Res :=
  if mavIn s .awaitCrcLow then .next (s.setMav { s.mav with crcLo := b, st := .awaitCrcHigh }) else .next s

/-- MAV.CRCHI: an unknown id is ignored unchecked, a known one is CRC-checked and decoded or rejected; the framer returns to its scan
state, mav.ver and mav.crc_lo keep their values (43 R241 to R243). -/
def execMavCrcHi (b : Byte) (s : State) : Res :=
  if mavIn s .awaitCrcHigh then
    match s.memRead .mavHdr 0 (hlen s.mav.ver), s.memRead .mavPay 0 s.mav.len.toNat with
    | some hdr, some pay =>
      let crc := le16 s.mav.crcLo b
      match mavClassify s.cfg s.mav.ver s.mav.len hdr pay crc with
      | .error c => .next (raiseReject .mavlink c s)
      | .ok cls => runMavFrame cls s.mav.ver hdr pay crc (toScan .mavlink s)
    | none, _ => .fault (.bufferIndex .mavHdr)
    | some _, none => .fault (.bufferIndex .mavPay)
  else .next s

end Sys2Proof.Machine
end

