-- ==== Sys2Proof/Machine/Text.lean ====
section
/-! DEFINITION. The text rows: the eight message rows and the line framer (40 R140 to R153, 45 R305). A row runs when the text parser
is present; the two parsers not selected take no step (00 R3; log 7). -/

namespace Sys2Proof.Machine

/-- The end of a line: a reject, or the held state updated, the event emitted and the held state published
(40 R149, R152, R153; 45 R305). -/
def finishLine (r : Except RejectCode LineMsg) (s : State) : State :=
  match r with
  | .error c => raiseReject .text c s
  | .ok m =>
    let h := heldAfter s.txt.held m
    publish h (emit (lineEvent m) (s.setTxt { s.txt with held := h }))

/-- A message row with its operand (40 R141). -/
def textRow (k : LineKind) (operand : List Byte) (s : State) : Res :=
  if s.cfg.protocol = .text then .next (finishLine (lineValue k operand) s) else .next s

/-- TXT.G (40 R140). -/
def execTxtG (rest : List Byte) (s : State) : Res := textRow .full rest s

/-- TXT.U.B (40 R142). -/
def execTxtUB (val : List Byte) (s : State) : Res := textRow .b val s

/-- TXT.U.LX (40 R143). -/
def execTxtULX (val : List Byte) (s : State) : Res := textRow .lx val s

/-- TXT.U.LY (40 R144). -/
def execTxtULY (val : List Byte) (s : State) : Res := textRow .ly val s

/-- TXT.U.RX (40 R145). -/
def execTxtURX (val : List Byte) (s : State) : Res := textRow .rx val s

/-- TXT.U.RY (40 R146). -/
def execTxtURY (val : List Byte) (s : State) : Res := textRow .ry val s

/-- TXT.U.LT (40 R147). -/
def execTxtULT (val : List Byte) (s : State) : Res := textRow .lt val s

/-- TXT.U.RT (40 R148). -/
def execTxtURT (val : List Byte) (s : State) : Res := textRow .rt val s

/-- The message row a line kind selects (30 R111). -/
def runLine (k : LineKind) (operand : List Byte) (s : State) : Res :=
  match k with
  | .full => execTxtG operand s
  | .b => execTxtUB operand s
  | .lx => execTxtULX operand s
  | .ly => execTxtULY operand s
  | .rx => execTxtURX operand s
  | .ry => execTxtURY operand s
  | .lt => execTxtULT operand s
  | .rt => execTxtURT operand s

/-- TXT.BYTE: the byte is stored while the buffer has room, else txt.ovf is set (40 R150). -/
def execTxtByte (b : Byte) (s : State) : Res :=
  if s.cfg.protocol = .text ∧ b ≠ chLf then
    if lineHasRoom s then
      match s.memWrite .txtBuf s.txt.idx b with
      | none => .fault (.bufferIndex .txtBuf)
      | some s1 => .next (s1.setTxt { s1.txt with idx := s.txt.idx + 1, ovf := ovfAfterByte s })
    else .next (s.setTxt { s.txt with ovf := ovfAfterByte s })
  else .next s

/-- TXT.LF: an over-long line is rejected whole; else the collected line with its newline is parsed, in an emptied buffer
(40 R149). -/
def execTxtLf (s : State) : Res :=
  if s.cfg.protocol = .text then
    if s.txt.ovf then .next (raiseReject .text .txtLineTooLong s)
    else
      match s.memRead .txtBuf 0 s.txt.idx with
      | none => .fault (.bufferIndex .txtBuf)
      | some bytes =>
        let s1 := s.setTxt { s.txt with idx := 0 }
        match splitLine (bytes ++ [chLf]) with
        | .error c => .next (raiseReject .text c s1)
        | .ok (k, operand) => runLine k operand s1
  else .next s

end Sys2Proof.Machine
end

