-- ==== Sys2Proof/Machine/Bridge.lean ====
section
/-! DEFINITION. The mailbox rows and the two bridge tasks (45 R301 to R310). -/

namespace Sys2Proof.Machine

/-- MBOX.PUBLISH (45 R301). -/
def execMboxPublish (g : GamepadState) (s : State) : Res := .next (publish g s)

/-- MBOX.TAKE (45 R302). -/
def execMboxTake (s : State) : Res := .next (take s)

/-- IN.RX: the byte-step row of the selected parser runs on the byte; the publish it leads to happens in the same step (45 R305;
40 R151, 41 R185, 43 R248). -/
def execInRx (b : Byte) (s : State) : Res :=
  match s.cfg.protocol with
  | .text => if b = chLf then execTxtLf s else execTxtByte b s
  | .crsf =>
    match s.crsf.st with
    | .awaitSync => if s.cfg.crsfSync.contains b then execCrsfSync b s else execCrsfSkip b s
    | .awaitLength => execCrsfLen b s
    | .accumulatePayload => execCrsfAcc b s
    | .awaitCrc => execCrsfCrc b s
  | .mavlink =>
    match s.mav.st with
    | .awaitSync => if b = syncV1 then execMavSync1 s else if b = syncV2 then execMavSync2 s else execMavSkip b s
    | .awaitLength => execMavLen b s
    | .accumulateHeader => execMavHdr b s
    | .accumulatePayload => execMavPay b s
    | .awaitCrcLow => execMavCrcLo b s
    | .awaitCrcHigh => execMavCrcHi b s

/-- IN.RXERR: one pulse on fault[0], no register changes (45 R306). -/
def execInRxErr (s : State) : Res := .next (pulseFaultIn s)

/-- OUT.WAKE: when enabled the task goes on to wait for the sink; the flag is only sampled. Not enabled, the task holds (45 R307). -/
def execOutWake (s : State) : Res :=
  if wakeEnabled s then .next (s.setOut { s.out with st := .waitReady }) else .next s

/-- OUT.READY: in WaitReady the newest value is taken and latched for the send; in any other state no effect (45 R308). -/
def execOutReady (s : State) : Res :=
  if s.out.st = .waitReady then .next ((take s).setOut ⟨.sending, s.mbox.cell⟩) else .next s

/-- OUT.DONE: in Sending the task returns to WaitValue, a failed send pulses fault[1] and is dropped; in any other state no effect
(45 R309, R310). -/
def execOutDone (ok : Bool) (s : State) : Res :=
  if s.out.st = .sending then
    let s1 := s.setOut { s.out with st := .waitValue }
    .next (if ok then s1 else pulseFaultOut s1)
  else .next s

end Sys2Proof.Machine
end

