-- ==== Sys2Proof/Machine/Dispatch.lean ====
section
/-! DEFINITION. The meaning of every instruction, one arm per row of the opcode table. -/

namespace Sys2Proof.Machine

/-- The meaning of an instruction. -/
def exec (i : Instr) (s : State) : Host.Outcome State Fault Refusal :=
  match i with
  | .txtG rest => Sys2Proof.Machine.execTxtG rest s
  | .txtUB val => Sys2Proof.Machine.execTxtUB val s
  | .txtULX val => Sys2Proof.Machine.execTxtULX val s
  | .txtULY val => Sys2Proof.Machine.execTxtULY val s
  | .txtURX val => Sys2Proof.Machine.execTxtURX val s
  | .txtURY val => Sys2Proof.Machine.execTxtURY val s
  | .txtULT val => Sys2Proof.Machine.execTxtULT val s
  | .txtURT val => Sys2Proof.Machine.execTxtURT val s
  | .txtByte b => Sys2Proof.Machine.execTxtByte b s
  | .txtLf => Sys2Proof.Machine.execTxtLf s
  | .crsfSync b => Sys2Proof.Machine.execCrsfSync b s
  | .crsfSkip b => Sys2Proof.Machine.execCrsfSkip b s
  | .crsfLen b => Sys2Proof.Machine.execCrsfLen b s
  | .crsfAcc b => Sys2Proof.Machine.execCrsfAcc b s
  | .crsfCrc b => Sys2Proof.Machine.execCrsfCrc b s
  | .crsfRc payload => Sys2Proof.Machine.execCrsfRc payload s
  | .crsfTelem type payload => Sys2Proof.Machine.execCrsfTelem type payload s
  | .crsfUnknown type payload => Sys2Proof.Machine.execCrsfUnknown type payload s
  | .mavSync1 => Sys2Proof.Machine.execMavSync1 s
  | .mavSync2 => Sys2Proof.Machine.execMavSync2 s
  | .mavSkip b => Sys2Proof.Machine.execMavSkip b s
  | .mavLen b => Sys2Proof.Machine.execMavLen b s
  | .mavHdr b => Sys2Proof.Machine.execMavHdr b s
  | .mavPay b => Sys2Proof.Machine.execMavPay b s
  | .mavCrcLo b => Sys2Proof.Machine.execMavCrcLo b s
  | .mavCrcHi b => Sys2Proof.Machine.execMavCrcHi b s
  | .mavHeartbeat h payload => Sys2Proof.Machine.execMavHeartbeat h payload s
  | .mavManualControl h payload => Sys2Proof.Machine.execMavManualControl h payload s
  | .mavUnknown h msgid payload crc => Sys2Proof.Machine.execMavUnknown h msgid payload crc s
  | .mboxPublish g => Sys2Proof.Machine.execMboxPublish g s
  | .mboxTake => Sys2Proof.Machine.execMboxTake s
  | .inRx b => Sys2Proof.Machine.execInRx b s
  | .inRxErr => Sys2Proof.Machine.execInRxErr s
  | .outWake => Sys2Proof.Machine.execOutWake s
  | .outReady => Sys2Proof.Machine.execOutReady s
  | .outDone ok => Sys2Proof.Machine.execOutDone ok s

end Sys2Proof.Machine
end

