-- ==== Sys2Proof/Machine/Ports.lean ====
section
/-! DEFINITION. The boundary of the machine: events (00 R6), one clock cycle of the synchronous interface (30 R108, 60 R348), the
output ports (30 R108), the codes of the enumerations (10 R37, 60 R341). -/

namespace Sys2Proof.Machine

/-- evt_code of a reject (60 R341). -/
def rejectNumber : RejectCode → BitVec 5
  | .txtMissingNewline => 1
  | .txtMissingStar => 2
  | .txtBadChecksumField => 3
  | .txtChecksumMismatch => 4
  | .txtUnknownTag => 5
  | .txtUnknownFieldCode => 6
  | .txtMalformedField => 7
  | .txtOutOfRange => 8
  | .txtLineTooLong => 9
  | .crsfUnderLength => 16
  | .crsfOverLength => 17
  | .crsfCrcMismatch => 18
  | .crsfBadPayloadLength => 19
  | .mavCrcMismatch => 24

/-- evt_kind of an output event (30 R108). -/
def evtKind : OutEvent → BitVec 3
  | .fullState _ => 0
  | .update _ => 0
  | .rcChannels _ => 0
  | .manualControl _ => 0
  | .telemetry _ _ => 1
  | .ignoredType _ => 2
  | .ignoredMsg _ => 2
  | .heartbeat _ _ => 3
  | .reject _ => 4

/-- evt_code of an output event: 0 unless a reject (30 R108). -/
def evtCode : OutEvent → BitVec 5
  | .reject c => rejectNumber c
  | _ => 0

/-- The output ports (30 R108). -/
structure PortOut where
  evtValid : Bool
  evtKind : BitVec 3
  evtCode : BitVec 5
  linkPresent : Bool
  fault : BitVec 2
  snkValid : Bool
  snkData : BusWord
  deriving DecidableEq, Repr

/-- The output ports after a step; fault bit 0 is the input side, bit 1 the output side (30 R108, 60 R358). -/
def portOut (s : State) : PortOut where
  evtValid := s.pulses.evt.isSome
  evtKind := (s.pulses.evt.map evtKind).getD 0
  evtCode := (s.pulses.evt.map evtCode).getD 0
  linkPresent := s.pulses.linkPresent
  fault := BitVec.ofBool s.pulses.faultOut ++ BitVec.ofBool s.pulses.faultIn
  snkValid := decide (s.out.st = .sending)
  snkData := toBus s.out.cur

/-- The internal strobe vector publish, take of the step (30 R108). -/
def strobes (s : State) : BitVec 2 := BitVec.ofBool s.pulses.publish.isSome ++ BitVec.ofBool s.pulses.take.isSome

/-- The suggested code of crsf.st (10 R37). -/
def crsfStCode : CrsfSt → BitVec 2
  | .awaitSync => 0
  | .awaitLength => 1
  | .accumulatePayload => 2
  | .awaitCrc => 3

/-- The suggested code of mav.st (10 R37). -/
def mavStCode : MavSt → BitVec 3
  | .awaitSync => 0
  | .awaitLength => 1
  | .accumulateHeader => 2
  | .accumulatePayload => 3
  | .awaitCrcLow => 4
  | .awaitCrcHigh => 5

/-- The suggested code of out.st (10 R37). -/
def outStCode : OutSt → BitVec 2
  | .waitValue => 0
  | .waitReady => 1
  | .sending => 2

/-- The state a code of crsf.st stands for (10 R37). -/
def crsfStOfCode (c : BitVec 2) : CrsfSt :=
  if c = 1 then .awaitLength else if c = 2 then .accumulatePayload else if c = 3 then .awaitCrc else .awaitSync

/-- The state a code of mav.st stands for; codes 6 and 7 are treated as AwaitSync (10 R37). -/
def mavStOfCode (c : BitVec 3) : MavSt :=
  if c = 1 then .awaitLength
  else if c = 2 then .accumulateHeader
  else if c = 3 then .accumulatePayload
  else if c = 4 then .awaitCrcLow
  else if c = 5 then .awaitCrcHigh
  else .awaitSync

/-- The state a code of out.st stands for; code 3 is treated as WaitValue (10 R37). -/
def outStOfCode (c : BitVec 2) : OutSt := if c = 1 then .waitReady else if c = 2 then .sending else .waitValue

/-- Where a received byte finds the machine (30 R111). -/
def byteCtx (s : State) : ByteCtx :=
  match s.cfg.protocol with
  | .text => .text
  | .crsf => .crsf s.crsf.st
  | .mavlink => .mav s.mav.st

/-- The strobe rx_valid with a byte on rx_data (30 R108). -/
def rxCode (b : Byte) : Code := .port .rx 1 (b.setWidth 96)

/-- The strobe rx_err (30 R108). -/
def rxErrCode : Code := .port .rxErr 1 0

/-- The level mbox.has_new that enables the wake step (45 R307). -/
def wakeCode : Code := .port .hasNew 1 0

/-- The strobe snk_ready (30 R108). -/
def readyCode : Code := .port .snkReady 1 0

/-- The strobe snk_done with snk_ok (30 R108). -/
def doneCode (ok : Bool) : Code := .port .snkDone 1 ((BitVec.ofBool ok).setWidth 96)

/-- The code of a single event; reset and a whole clock cycle are no instruction (30 R108). -/
def eventCode : Event → Option Code
  | .rxByte b => some (rxCode b)
  | .rxError => some rxErrCode
  | .wake => some wakeCode
  | .ready => some readyCode
  | .sendDone ok => some (doneCode ok)
  | .reset => none
  | .cycle _ => none

/-- Instructions one after the other, each in the state the one before it left. -/
def execAll : List Instr → State → Res
  | [], s => .next s
  | i :: is, s =>
    match exec i s with
    | .next t => execAll is t
    | .fault f => .fault f
    | .refused r => .refused r

/-- What the output task does in a clock cycle: the event its state waits for, sampled at the clock edge (45 R307 to R310). -/
def outInstrs (p : PortIn) (s : State) : List Instr :=
  match s.out.st with
  | .waitValue => if s.mbox.hasNew then [.outWake] else []
  | .waitReady => if p.snkReady then [.outReady] else []
  | .sending => if p.snkDone then [.outDone p.snkOk] else []

/-- What the input task does in a clock cycle: the byte first, then the fault (60 R348). -/
def inInstrs (p : PortIn) : List Instr :=
  (if p.rxValid then [.inRx p.rxData] else []) ++ (if p.rxErr then [.inRxErr] else [])

/-- The instructions of one clock cycle without reset: the output side first, so that a Publish in the cycle of a Take comes after it
(45 R304, 60 R348; log 12). -/
def cycleInstrs (p : PortIn) (s : State) : List Instr := outInstrs p s ++ inInstrs p

/-- One clock cycle: with rst high reset alone (70 R380), else the instructions of its strobes. -/
def runCycle (p : PortIn) (s : State) : Res :=
  if p.rst then .next (applyReset s) else execAll (cycleInstrs p s) s

/-- The step of a strobe: the instruction it decodes to. A strobe that decodes to none holds. -/
def runCode (code : Code) (s : State) : Res :=
  match decode s.cfg code with
  | .ok i => exec i s
  | .error _ => .next s

/-- One event (00 R6, 70 R380). -/
def runEvent (e : Event) (s : State) : Res :=
  match e with
  | .reset => .next (applyReset s)
  | .cycle p => runCycle p s
  | .rxByte b => runCode (rxCode b) s
  | .rxError => runCode rxErrCode s
  | .wake => runCode wakeCode s
  | .ready => runCode readyCode s
  | .sendDone ok => runCode (doneCode ok) s

/-- The state in which a step's event runs: the event is taken from the inbox and the output signals of the step before it are gone
(log 1, 8). -/
def accept (rest : List Event) (s : State) : State := { s with inbox := rest, pulses := Pulses.quiet }

end Sys2Proof.Machine
end

