-- ==== Sys2Proof/Machine/Transmit.lean ====
section
/-! DEFINITION. The transmit direction, combinational functions beside the step: the text serializers and the builder
(40 R154 to R157), the CRSF telemetry encoder (42 R212, 30 R110). No event runs them (log 27). -/

namespace Sys2Proof.Machine

/-- The decimal digits of a number, most significant first, no leading zero; `fuel` is at least the number of digits. -/
def decDigits : Nat → Nat → List Byte → List Byte
  | 0, _, acc => acc
  | fuel + 1, n, acc => if n < 10 then decDigit n :: acc else decDigits fuel (n / 10) (decDigit (n % 10) :: acc)

/-- DEC of a natural number (40 R154). -/
def decNat (n : Nat) : List Byte := decDigits (n + 1) n []

/-- DEC: a minus sign when negative, then the digits of the magnitude (40 R154). -/
def decInt (v : Int) : List Byte := if v < 0 then chMinus :: decNat v.natAbs else decNat v.natAbs

/-- The operand of a full-state line, fixed field order (40 R154). -/
def fullOperand (g : GamepadState) : List Byte :=
  hex4 g.buttons ++ [chColon] ++ decInt g.lx.toInt ++ [chColon] ++ decInt g.ly.toInt ++ [chColon] ++ decInt g.rx.toInt ++
    [chColon] ++ decInt g.ry.toInt ++ [chColon] ++ decNat g.lt.toNat ++ [chColon] ++ decNat g.rt.toNat

/-- The kind of an update (30 R103). -/
def updateKind : FieldUpdate → LineKind
  | .buttons _ => .b
  | .leftStickX _ => .lx
  | .leftStickY _ => .ly
  | .rightStickX _ => .rx
  | .rightStickY _ => .ry
  | .leftTrigger _ => .lt
  | .rightTrigger _ => .rt

/-- The value of an update line (40 R155). -/
def updateOperand : FieldUpdate → List Byte
  | .buttons v => hex4 v
  | .leftStickX v => decInt v.toInt
  | .leftStickY v => decInt v.toInt
  | .rightStickX v => decInt v.toInt
  | .rightStickY v => decInt v.toInt
  | .leftTrigger v => decNat v.toNat
  | .rightTrigger v => decNat v.toNat

/-- The canonical full-state line (40 R154). -/
def fullLine (g : GamepadState) : List Byte := lineOf (chG :: fullOperand g)

/-- The canonical update line (40 R155). -/
def updateLine (u : FieldUpdate) : List Byte := lineOf (updateBody (updateKind u) (updateOperand u))

/-- The result of a serializer or encoder (40 R156, 42 R212, 60 R354). -/
inductive TransmitResult where
  | written (out : List Byte)
  | bufferTooSmall
  | nothingToEncode
  deriving DecidableEq, Repr

/-- The buffer check: never truncated, nothing written when it does not fit (40 R156, 60 R354). -/
def fitted (out : List Byte) (cap : Nat) : TransmitResult := if cap < out.length then .bufferTooSmall else .written out

/-- serialize_full (40 R154, R156). -/
def serializeFull (g : GamepadState) (cap : Nat) : TransmitResult := fitted (fullLine g) cap

/-- serialize_update (40 R155, R156). -/
def serializeUpdate (u : FieldUpdate) (cap : Nat) : TransmitResult := fitted (updateLine u) cap

/-- The fields a caller of the builder sets, NEUTRAL elsewhere; a later setting of one field wins (40 R157). -/
def builtState (fields : List FieldUpdate) : GamepadState := fields.foldl merge GamepadState.neutral

/-- build_full (40 R157). -/
def buildFull (fields : List FieldUpdate) (cap : Nat) : TransmitResult := serializeFull (builtState fields) cap

/-- The sync byte of the frames the telemetry encoder writes (30 R110). -/
def telemetrySync : Byte := 0xC8

/-- The frames of a telemetry record, one after the other (42 R212). -/
def telemetryBytes (frames : List (Byte × List Byte)) : List Byte :=
  frames.flatMap fun f => crsfFrameOf telemetrySync f.1 f.2

/-- encode_telemetry (42 R212). -/
def encodeTelemetry (tp : TelemetryPayload) (data : TelemetryData) (cap : Nat) : TransmitResult :=
  if data.allAbsent then .nothingToEncode else fitted (telemetryBytes (tp.frames data)) cap

end Sys2Proof.Machine
end

