-- ==== Sys2Proof/Machine/Present.lean ====
section
/-! DEFINITION. How an instruction comes to be the machine's next one: the context that selects its row, and its event at the head of the
inbox (30 R111; log 16). -/

namespace Sys2Proof.Machine

/-- The instance's parser replaced. -/
def withProtocol (p : Protocol) (s : State) : State := { s with cfg := { s.cfg with protocol := p } }

/-- An event put in front of the inbox. -/
def nextEvent (e : Event) (s : State) : State := { s with inbox := e :: s.inbox }

/-- A byte next for the text parser. -/
def presentText (b : Byte) (s : State) : State := nextEvent (.rxByte b) (withProtocol .text s)

/-- A line all of whose bytes but the newline are in the line buffer, its newline next. -/
def presentLine (body : List Byte) (s : State) : State :=
  let bytes := body ++ [chStar] ++ hex2 (xor8 body)
  presentText chLf (s.setTxt { s.txt with buf := s.txt.buf.writeRange 0 bytes, idx := bytes.length, ovf := false })

/-- A byte next for the CRSF parser in the given registers. -/
def presentCrsf (r : CrsfRegs) (b : Byte) (s : State) : State := nextEvent (.rxByte b) (withProtocol .crsf (s.setCrsf r))

/-- A CRSF frame all of whose bytes but the CRC have arrived, its CRC next. -/
def presentCrsfFrame (type : Byte) (payload : List Byte) (s : State) : State :=
  presentCrsf { st := .awaitCrc, len := BitVec.ofNat 8 (payload.length + 2), idx := BitVec.ofNat 8 (payload.length + 1),
                buf := s.crsf.buf.writeRange 0 (type :: payload) } (crc8 (type :: payload)) s

/-- A byte next for the MAVLink parser in the given registers. -/
def presentMav (r : MavRegs) (b : Byte) (s : State) : State := nextEvent (.rxByte b) (withProtocol .mavlink (s.setMav r))

/-- A MAVLink frame all of whose bytes but the last have arrived, its high CRC byte next. -/
def presentMavFrame (h : MavHeader) (id : MsgId) (payload : List Byte) (crc : Half) (s : State) : State :=
  let hdr := headerBytes h id
  presentMav { st := .awaitCrcHigh, ver := headerVer h, len := BitVec.ofNat 8 payload.length, hidx := hdr.length,
               pidx := payload.length, hdr := s.mav.hdr.writeRange 0 hdr, pay := s.mav.pay.writeRange 0 payload,
               crcLo := byteOf crc 0 } (byteOf crc 1) s

/-- The state whose next step runs the instruction: its context and its event, everything else as it was. Publish is presented as a
full-state line of its value, Take as the readiness of a waiting output task, since the mailbox has no step of its own (45 R300). -/
def present (i : Instr) (s : State) : State :=
  match i with
  | .txtG rest => presentLine (chG :: rest) s
  | .txtUB val => presentLine (updateBody .b val) s
  | .txtULX val => presentLine (updateBody .lx val) s
  | .txtULY val => presentLine (updateBody .ly val) s
  | .txtURX val => presentLine (updateBody .rx val) s
  | .txtURY val => presentLine (updateBody .ry val) s
  | .txtULT val => presentLine (updateBody .lt val) s
  | .txtURT val => presentLine (updateBody .rt val) s
  | .txtByte b => presentText b s
  | .txtLf => presentText chLf s
  | .crsfSync b => presentCrsf { s.crsf with st := .awaitSync, len := 0, idx := 0 } b s
  | .crsfSkip b => presentCrsf { s.crsf with st := .awaitSync, len := 0, idx := 0 } b s
  | .crsfLen b => presentCrsf { s.crsf with st := .awaitLength, len := 0, idx := 0 } b s
  | .crsfAcc b => presentCrsf { s.crsf with st := .accumulatePayload, len := 2, idx := 0 } b s
  | .crsfCrc b => presentCrsf { s.crsf with st := .awaitCrc, len := 2, idx := 1 } b s
  | .crsfRc payload => presentCrsfFrame s.cfg.crsfTypeRc payload s
  | .crsfTelem type payload => presentCrsfFrame type payload s
  | .crsfUnknown type payload => presentCrsfFrame type payload s
  | .mavSync1 => presentMav { s.mav with st := .awaitSync, len := 0, hidx := 0, pidx := 0 } syncV1 s
  | .mavSync2 => presentMav { s.mav with st := .awaitSync, len := 0, hidx := 0, pidx := 0 } syncV2 s
  | .mavSkip b => presentMav { s.mav with st := .awaitSync, len := 0, hidx := 0, pidx := 0 } b s
  | .mavLen b => presentMav { s.mav with st := .awaitLength, len := 0, hidx := 0, pidx := 0 } b s
  | .mavHdr b => presentMav { s.mav with st := .accumulateHeader, len := 0, hidx := 0, pidx := 0 } b s
  | .mavPay b => presentMav { s.mav with st := .accumulatePayload, len := 1, hidx := hlen s.mav.ver, pidx := 0 } b s
  | .mavCrcLo b => presentMav { s.mav with st := .awaitCrcLow, len := 0, hidx := hlen s.mav.ver, pidx := 0 } b s
  | .mavCrcHi b => presentMav { s.mav with st := .awaitCrcHigh, len := 0, hidx := hlen s.mav.ver, pidx := 0 } b s
  | .mavHeartbeat h payload => presentMavFrame h 0 payload (crcFor s.cfg h 0 payload) s
  | .mavManualControl h payload => presentMavFrame h 69 payload (crcFor s.cfg h 69 payload) s
  | .mavUnknown h id payload crc => presentMavFrame h id payload crc s
  | .mboxPublish g => presentLine (chG :: fullOperand g) s
  | .mboxTake => nextEvent .ready ((s.setOut { s.out with st := .waitReady }).setMbox { s.mbox with hasNew := true })
  | .inRx b => nextEvent (.rxByte b) s
  | .inRxErr => nextEvent .rxError s
  | .outWake => nextEvent .wake ((s.setOut { s.out with st := .waitValue }).setMbox { s.mbox with hasNew := true })
  | .outReady => nextEvent .ready ((s.setOut { s.out with st := .waitReady }).setMbox { s.mbox with hasNew := true })
  | .outDone ok => nextEvent (.sendDone ok) (s.setOut { s.out with st := .sending })

end Sys2Proof.Machine
end

