-- ==== Sys2Proof/Machine/Step.lean ====
section
/-! DEFINITION. One step: the next event of the inbox; with an empty inbox the output task's wake step when it is enabled, else the
machine holds (00 R6, R7; 45 R307, R311; log 1, 10). -/

namespace Sys2Proof.Machine

/-- One step of the machine. -/
def step (s : State) : Host.Outcome State Fault Refusal :=
  match s.inbox with
  | [] => exec .outWake (accept [] s)
  | e :: rest => runEvent e (accept rest s)

/-- The state whose next step runs the instruction of an opcode-table word; unchanged when the decoder refuses the word. -/
def State.withFetchWord (s : State) (nbits w : Nat) : State :=
  match decodeTableWord nbits w with
  | none => s
  | some i => present i s

end Sys2Proof.Machine
end

