-- ==== Sys2Proof/Safety.lean ====
section
/-! DEFINITION. The terms the statements use: the invariant of reachable states (20 R61, 41 R183, 43 R247, 45 R308), what a step leaves
after a reject or an accepted packet, and what a run publishes and takes. -/

namespace Sys2Proof.Machine

/-- A storage array is in canonical form and holds no byte outside its size (20 R60). -/
abbrev State.ArrayInv (s : State) (b : BufId) : Prop :=
  (s.buf b).wf ∧ ∀ c ∈ s.buf b, c.1 < Config.cap s.cfg b

/-- txt.idx stays in its range, and txt.ovf is set only when the line buffer is full (20 R61, 40 R150). -/
abbrev State.TxtInv (s : State) : Prop :=
  s.txt.idx ≤ s.cfg.textLineMax - 1 ∧ (s.txt.ovf = true → s.txt.idx = s.cfg.textLineMax - 1)

/-- The invariants of the CRSF framer (41 R183). -/
abbrev State.CrsfInv (s : State) : Prop :=
  (s.crsf.st = .awaitSync ∨ s.crsf.st = .awaitLength → s.crsf.len = 0 ∧ s.crsf.idx = 0) ∧
  (s.crsf.st = .accumulatePayload ∨ s.crsf.st = .awaitCrc → 2 ≤ s.crsf.len.toNat ∧ s.crsf.len.toNat ≤ s.cfg.crsfMaxLen) ∧
  (s.crsf.st = .accumulatePayload → s.crsf.idx.toNat + 1 < s.crsf.len.toNat) ∧
  (s.crsf.st = .awaitCrc → s.crsf.idx.toNat + 1 = s.crsf.len.toNat)

/-- The invariants of the MAVLink framer (43 R247). -/
abbrev State.MavInv (s : State) : Prop :=
  (s.mav.st = .awaitSync ∨ s.mav.st = .awaitLength → s.mav.len = 0 ∧ s.mav.hidx = 0 ∧ s.mav.pidx = 0) ∧
  (s.mav.st = .accumulateHeader → s.mav.hidx < hlen s.mav.ver ∧ s.mav.pidx = 0) ∧
  (s.mav.st = .accumulatePayload → s.mav.hidx = hlen s.mav.ver ∧ 1 ≤ s.mav.len.toNat ∧ s.mav.pidx < s.mav.len.toNat) ∧
  (s.mav.st = .awaitCrcLow ∨ s.mav.st = .awaitCrcHigh → s.mav.hidx = hlen s.mav.ver ∧ s.mav.pidx = s.mav.len.toNat)

/-- While the output task waits for the sink, the mailbox holds a value not yet delivered (45 R308). -/
abbrev State.OutInv (s : State) : Prop := s.out.st = .waitReady → s.mbox.hasNew = true

/-- The invariant: legal parameters, arrays in form, every agent's registers in their ranges. -/
structure State.Inv (s : State) : Prop where
  cfg : s.cfg.wf
  txtBuf : s.ArrayInv .txtBuf
  crsfBuf : s.ArrayInv .crsfBuf
  mavHdr : s.ArrayInv .mavHdr
  mavPay : s.ArrayInv .mavPay
  txt : s.TxtInv
  crsf : s.CrsfInv
  mav : s.MavInv
  out : s.OutInv

/-- A safe step: the machine goes on, in a state with the invariant (60 R355). -/
def Res.safe (r : Res) : Prop := ∃ t, r = .next t ∧ t.Inv

/-- What is left when a parser rejects: its framer scans with its counters cleared, the event is emitted (60 R349). -/
def afterReject (p : Protocol) (c : RejectCode) (s : State) : State :=
  match p with
  | .text => { s with txt := { s.txt with idx := 0, ovf := false }, pulses := { s.pulses with evt := some (.reject c) } }
  | .crsf => { s with crsf := { s.crsf with st := .awaitSync, len := 0, idx := 0 },
                      pulses := { s.pulses with evt := some (.reject c) } }
  | .mavlink => { s with mav := { s.mav with st := .awaitSync, len := 0, hidx := 0, pidx := 0 },
                         pulses := { s.pulses with evt := some (.reject c) } }

/-- What is left when a packet is accepted that publishes `g`: the mailbox overwritten, the event emitted (45 R301, R305). -/
def afterPublish (g : GamepadState) (e : OutEvent) (s : State) : State :=
  { s with mbox := ⟨g, true⟩, pulses := { s.pulses with evt := some e, publish := some g } }

/-- What is left when a text line is accepted: txt.held is the new state, which is published (40 R152, R153; 45 R305). -/
def afterLine (g : GamepadState) (e : OutEvent) (s : State) : State :=
  afterPublish g e { s with txt := { s.txt with held := g } }

/-- What is left when an event is emitted and nothing else happens. -/
def afterEvent (e : OutEvent) (s : State) : State := { s with pulses := { s.pulses with evt := some e } }

/-- The registers of a freshly reset machine, but for the arrays, whose reset contents the spec leaves open (10 R42). -/
abbrev State.AtReset (t : State) : Prop :=
  t.txt.idx = 0 ∧ t.txt.ovf = false ∧ t.txt.held = GamepadState.neutral ∧
  t.crsf.st = .awaitSync ∧ t.crsf.len = 0 ∧ t.crsf.idx = 0 ∧
  t.mav.st = .awaitSync ∧ t.mav.ver = .v1 ∧ t.mav.len = 0 ∧ t.mav.hidx = 0 ∧ t.mav.pidx = 0 ∧ t.mav.crcLo = 0 ∧
  t.mbox.cell = GamepadState.neutral ∧ t.mbox.hasNew = false ∧ t.out.st = .waitValue ∧ t.out.cur = GamepadState.neutral

/-- The stick axis of a state that a name stands for (10 R25). -/
def axisOf (g : GamepadState) : StickAxis → Half
  | .lx => g.lx
  | .ly => g.ly
  | .rx => g.rx
  | .ry => g.ry

/-- The entry of a mapping does not drive this stick axis (10 R25). -/
def notDriving (e : Option AxisTarget) (a : StickAxis) : Prop := ∀ t, e = some t → t.dst ≠ a

/-- The parser a row belongs to, none for the rows of the bridge and the mailbox (00 R6). -/
def parserOf : Instr → Option Protocol
  | .txtG _ => some .text
  | .txtUB _ => some .text
  | .txtULX _ => some .text
  | .txtULY _ => some .text
  | .txtURX _ => some .text
  | .txtURY _ => some .text
  | .txtULT _ => some .text
  | .txtURT _ => some .text
  | .txtByte _ => some .text
  | .txtLf => some .text
  | .crsfSync _ => some .crsf
  | .crsfSkip _ => some .crsf
  | .crsfLen _ => some .crsf
  | .crsfAcc _ => some .crsf
  | .crsfCrc _ => some .crsf
  | .crsfRc _ => some .crsf
  | .crsfTelem _ _ => some .crsf
  | .crsfUnknown _ _ => some .crsf
  | .mavSync1 => some .mavlink
  | .mavSync2 => some .mavlink
  | .mavSkip _ => some .mavlink
  | .mavLen _ => some .mavlink
  | .mavHdr _ => some .mavlink
  | .mavPay _ => some .mavlink
  | .mavCrcLo _ => some .mavlink
  | .mavCrcHi _ => some .mavlink
  | .mavHeartbeat _ _ => some .mavlink
  | .mavManualControl _ _ => some .mavlink
  | .mavUnknown _ _ _ _ => some .mavlink
  | .mboxPublish _ => none
  | .mboxTake => none
  | .inRx _ => none
  | .inRxErr => none
  | .outWake => none
  | .outReady => none
  | .outDone _ => none

/-- The values published in the first k steps, in order (20 R68). -/
def published : Nat → State → List GamepadState
  | 0, _ => []
  | k + 1, s =>
    match step s with
    | .next t => t.pulses.publish.toList ++ published k t
    | .fault _ => []
    | .refused _ => []

/-- The values taken from the mailbox in the first k steps, in order (20 R68). -/
def taken : Nat → State → List GamepadState
  | 0, _ => []
  | k + 1, s =>
    match step s with
    | .next t => t.pulses.take.toList ++ taken k t
    | .fault _ => []
    | .refused _ => []

/-- A byte stream as input events. -/
def byteEvents (s : List Byte) : List Event := s.map .rxByte

end Sys2Proof.Machine
end

