-- ==== Sys2Proof/Certificates/Slice0/Obligations.lean ====
section
/-! DEFINITION. The statements for the provers. Each docstring names the rule of spec/ it formalises, or says that it is derived. -/

open Sys2Proof Sys2Proof.Machine

/-! Encoding -/

/-- Decoding the code of a well-formed instruction gives it back, for every row and every operand (30 R90 to R111). -/
def Obligations.DecodeEncodeRoundTrip : Prop :=
  ∀ (c : Config) (i : Instr), c.wf → i.wf c = true → decode c (encode c i) = .ok i

/-- Words written out from the spec's encodings decode to their instructions (30 R91, R95, R96, R102, R103, R108). -/
def Obligations.DecodedWordsOfTheSpec : Prop :=
  let c := defaultConfig .text
  decode c (.line [0x55, 0x42, 0x3A, 0x30, 0x30, 0x41, 0x35, 0x2A, 0x35, 0x39, 0x0A]) = .ok (.txtUB [0x30, 0x30, 0x41, 0x35]) ∧
  decode c (.line [0x55, 0x52, 0x59, 0x3A, 0x30, 0x2A, 0x35, 0x34, 0x0A]) = .ok (.txtURY [0x30]) ∧
  decode c (.crsf [0xC8, 0x05, 0x7A, 0x01, 0x02, 0x03, 0x02]) = .ok (.crsfUnknown 0x7A [1, 2, 3]) ∧
  decode c (.crsf [0xC8, 0x03, 0x0B, 0xEA, 0xC5]) = .ok (.crsfTelem 0x0B [0xEA]) ∧
  decode c (.mav [0xFD, 0x00, 0x00, 0x00, 0x03, 0xFF, 0xBE, 0x45, 0x00, 0x00, 0x94, 0x99]) =
    .ok (.mavManualControl ⟨some (0, 0), 3, 0xFF, 0xBE⟩ []) ∧
  decode c (.mav [0xFE, 0x04, 0x09, 0xFF, 0xBE, 0x1E, 0x01, 0x02, 0x03, 0x04, 0x54, 0x99]) =
    .ok (.mavUnknown ⟨none, 9, 0xFF, 0xBE⟩ 30 [1, 2, 3, 4] 0x9954) ∧
  decode c (.byte (.mav .awaitSync) 0xFE) = .ok .mavSync1 ∧
  decode c (.port .snkDone 1 1) = .ok (.outDone true) ∧
  decode c (.line [0x47, 0x2A, 0x30, 0x30, 0x0A]) = .error (.reject .txtChecksumMismatch)

/-- Each single event stands on a code that decodes to its row: the strobes of 30 R108, and for the wake step, which has no strobe, the
level mbox.has_new (00 R6, 45 R307). That wake stands among the events with a code is the model's choice: log 10. -/
def Obligations.SingleEventsDecodeToPortRows : Prop :=
  ∀ (c : Config) (b : Byte) (ok : Bool),
    (eventCode (.rxByte b)).map (decode c) = some (.ok (.inRx b)) ∧
    (eventCode .rxError).map (decode c) = some (.ok .inRxErr) ∧
    (eventCode .wake).map (decode c) = some (.ok .outWake) ∧
    (eventCode .ready).map (decode c) = some (.ok .outReady) ∧
    (eventCode (.sendDone ok)).map (decode c) = some (.ok (.outDone ok))

/-- The bus layout of a GamepadState: each field at its place, and back (10 R43). -/
def Obligations.BusLayoutOfAState : Prop :=
  ∀ g : GamepadState,
    (toBus g).toNat = g.buttons.toNat + 2 ^ 16 * g.lx.toNat + 2 ^ 32 * g.ly.toNat + 2 ^ 48 * g.rx.toNat + 2 ^ 64 * g.ry.toNat +
      2 ^ 80 * g.lt.toNat + 2 ^ 88 * g.rt.toNat ∧
    ofBus (toBus g) = g

/-! The step -/

/-- A step takes the next event from the inbox, clears the output signals and runs the instruction the event's strobe decodes to
(00 R6, R7; the inbox and the output signals are the model's own: log 1, 8). -/
def Obligations.StepRunsTheDecodedInstruction : Prop :=
  ∀ (s : State) (e : Event) (rest : List Event) (code : Code) (i : Instr), s.inbox = e :: rest → eventCode e = some code →
    decode s.cfg code = .ok i → i.wf s.cfg = true →
    step s = exec i { s with inbox := rest, pulses := ⟨none, false, false, false, none, none⟩ }

/-- A received byte selects exactly one well-formed byte-step row, and IN.RX runs that row (00 R11, 30 R111, 45 R305). -/
def Obligations.ReceivedByteRunsItsSelectedRow : Prop :=
  ∀ (b : Byte) (s : State), ∃ i, decode s.cfg (.byte (byteCtx s) b) = .ok i ∧ i.wf s.cfg = true ∧ exec (.inRx b) s = exec i s

/-- With nothing in the inbox the output task wakes when a value waits, else the machine holds (45 R307, R311; that an empty inbox
runs the wake step is the model's choice: log 10). -/
def Obligations.IdleStepWakesOrHolds : Prop :=
  ∀ s : State, s.inbox = [] →
    step s = .next { s with
      pulses := ⟨none, false, false, false, none, none⟩
      out := if s.out.st = .waitValue ∧ s.mbox.hasNew = true then { s.out with st := .waitReady } else s.out }

/-- Every step from a state with the invariant goes on, in a state with the invariant: nothing faults, nothing halts
(00 R11, 20 R61, 41 R183, 43 R247, 60 R355). -/
def Obligations.EveryStepKeepsTheInvariant : Prop := ∀ s : State, s.Inv → ∃ t, step s = .next t ∧ t.Inv

/-- A received byte is taken in every state with the invariant, which it keeps; the output task, the parameters and the further events
stay as they are (00 R11, 45 R305). -/
def Obligations.ReceivedByteCompletes : Prop :=
  ∀ (b : Byte) (s : State), s.Inv →
    ∃ t, exec (.inRx b) s = .next t ∧ t.Inv ∧ t.out = s.out ∧ t.cfg = s.cfg ∧ t.inbox = s.inbox

/-- No step changes a parameter (00 R3, 10 R39, 20 R71). -/
def Obligations.ParametersNeverChange : Prop := ∀ s t : State, step s = .next t → t.cfg = s.cfg

/-- The rows of a parser that is not selected take no step (00 R3; that such a row leaves the state as it is: log 7). -/
def Obligations.AbsentParsersTakeNoStep : Prop :=
  ∀ (i : Instr) (s : State) (p : Protocol), parserOf i = some p → s.cfg.protocol ≠ p → exec i s = .next s

/-! Reset -/

/-- Reset, as an event or as a clock cycle with rst high: every register at its reset value, no output event, the parameters kept
(10 R42, 70 R380; that the further events stay is the model's: log 11). -/
def Obligations.ResetYieldsTheResetValues : Prop :=
  ∀ (s : State) (rest : List Event) (p : PortIn), p.rst = true → (s.inbox = .reset :: rest ∨ s.inbox = .cycle p :: rest) →
    ∃ t : State, step s = .next t ∧ t.AtReset ∧ t.pulses = ⟨none, false, false, false, none, none⟩ ∧ t.cfg = s.cfg ∧ t.inbox = rest

/-- The reset state holds the reset values and has the invariant, under all legal parameters (10 R42, 70 R383). -/
def Obligations.ResetStateHasTheInvariant : Prop :=
  State.reset.AtReset ∧ State.reset.Inv ∧ ∀ c : Config, c.wf → (State.resetWith c).AtReset ∧ (State.resetWith c).Inv

/-! Rejects -/

/-- Whatever instruction rejects, the selected parser is scanning with its counters cleared and nothing outside it changed but the
event itself (60 R349). -/
def Obligations.RejectTouchesOnlyItsParser : Prop :=
  ∀ (i : Instr) (s t : State) (c : RejectCode), s.pulses.evt = none → exec i s = .next t → t.pulses.evt = some (.reject c) →
    t.txt.held = s.txt.held ∧ t.mbox = s.mbox ∧ t.out = s.out ∧ t.cfg = s.cfg ∧ t.inbox = s.inbox ∧
    t.pulses = { s.pulses with evt := some (.reject c) } ∧
    (s.cfg.protocol = .text → t.txt.idx = 0 ∧ t.txt.ovf = false ∧ t.crsf = s.crsf ∧ t.mav = s.mav) ∧
    (s.cfg.protocol = .crsf → t.crsf.st = .awaitSync ∧ t.crsf.len = 0 ∧ t.crsf.idx = 0 ∧ t.txt = s.txt ∧ t.mav = s.mav) ∧
    (s.cfg.protocol = .mavlink →
      t.mav.st = .awaitSync ∧ t.mav.len = 0 ∧ t.mav.hidx = 0 ∧ t.mav.pidx = 0 ∧ t.txt = s.txt ∧ t.crsf = s.crsf)

/-! Text -/

/-- A byte other than a newline is stored at txt.idx while the buffer has room and txt.ovf is clear; at a full buffer it sets txt.ovf;
nothing else changes. Once txt.ovf is set the byte is dropped, in every state in the framer's range (40 R150, R151). -/
def Obligations.TextByteIsStoredOrOverflows : Prop :=
  ∀ (b : Byte) (s : State), s.cfg.protocol = .text → b ≠ 0x0A → s.txt.buf.wf →
    (s.txt.ovf = false → s.txt.idx < s.cfg.textLineMax - 1 →
      ∃ t, exec (.txtByte b) s = .next t ∧ (∀ a, t.txt.buf.read a = if a = s.txt.idx then b else s.txt.buf.read a) ∧
        t = { s with txt := { s.txt with buf := t.txt.buf, idx := s.txt.idx + 1 } }) ∧
    (s.cfg.textLineMax - 1 ≤ s.txt.idx → exec (.txtByte b) s = .next { s with txt := { s.txt with ovf := true } }) ∧
    (s.TxtInv → s.txt.ovf = true → exec (.txtByte b) s = .next s)

/-- A newline rejects an over-long line; else it parses the collected line: a reject clears the framer alone, a full state replaces and
an update changes the held state, which is published (40 R149, R152; 45 R305). -/
def Obligations.NewlineParsesTheLine : Prop :=
  ∀ s : State, s.cfg.protocol = .text → s.txt.idx ≤ s.cfg.textLineMax - 1 →
    (s.txt.ovf = true → exec .txtLf s = .next (afterReject .text .txtLineTooLong s)) ∧
    (s.txt.ovf = false →
      let line := s.txt.buf.readRange 0 s.txt.idx ++ [0x0A]
      let s0 : State := { s with txt := { s.txt with idx := 0 } }
      (∀ c, parse line = .error c → exec .txtLf s = .next (afterReject .text c s)) ∧
      (∀ g, parse line = .ok (.full g) → exec .txtLf s = .next (afterLine g (.fullState g) s0)) ∧
      (∀ u, parse line = .ok (.update u) → exec .txtLf s = .next (afterLine (merge s.txt.held u) (.update u) s0)))

/-- A full-state line of seven well-formed fields in range sets every field, replaces the held state and publishes it (40 R140, R152). -/
def Obligations.FullStateRowSetsEveryField : Prop :=
  ∀ (s : State) (rest f0 f1 f2 f3 f4 f5 f6 : List Byte) (b : Nat) (lx ly rx ry lt rt : Int), s.cfg.protocol = .text →
    splitFields rest = [f0, f1, f2, f3, f4, f5, f6] → parseHex4 f0 = some b → parseDec f1 = some lx → parseDec f2 = some ly →
    parseDec f3 = some rx → parseDec f4 = some ry → parseDec f5 = some lt → parseDec f6 = some rt →
    (∀ v ∈ [lx, ly, rx, ry], -32768 ≤ v ∧ v ≤ 32767) → (∀ v ∈ [lt, rt], 0 ≤ v ∧ v ≤ 255) →
    ∃ g : GamepadState, exec (.txtG rest) s = .next (afterLine g (.fullState g) s) ∧ g.buttons = BitVec.ofNat 16 b ∧
      g.lx.toInt = lx ∧ g.ly.toInt = ly ∧ g.rx.toInt = rx ∧ g.ry.toInt = ry ∧ (g.lt.toNat : Int) = lt ∧ (g.rt.toNat : Int) = rt

/-- A full-state line of another field count or with a malformed field is malformed; with all fields well-formed and one out of its
range it is out of range (40 R140, 60 R345). -/
def Obligations.FullStateRowRejects : Prop :=
  ∀ (s : State) (rest : List Byte), s.cfg.protocol = .text →
    ((splitFields rest).length ≠ 7 → exec (.txtG rest) s = .next (afterReject .text .txtMalformedField s)) ∧
    ∀ f0 f1 f2 f3 f4 f5 f6 : List Byte, splitFields rest = [f0, f1, f2, f3, f4, f5, f6] →
      ((parseHex4 f0 = none ∨ ∃ f ∈ [f1, f2, f3, f4, f5, f6], parseDec f = none) →
        exec (.txtG rest) s = .next (afterReject .text .txtMalformedField s)) ∧
      (∀ (b : Nat) (lx ly rx ry lt rt : Int), parseHex4 f0 = some b → parseDec f1 = some lx → parseDec f2 = some ly →
        parseDec f3 = some rx → parseDec f4 = some ry → parseDec f5 = some lt → parseDec f6 = some rt →
        ((∃ v ∈ [lx, ly, rx, ry], v < -32768 ∨ 32767 < v) ∨ ∃ v ∈ [lt, rt], v < 0 ∨ 255 < v) →
        exec (.txtG rest) s = .next (afterReject .text .txtOutOfRange s))

/-- The four stick updates: a value in range changes that one field of the held state, which is published (40 R143 to R146, R153). -/
def Obligations.StickUpdateRowsMerge : Prop :=
  ∀ (s : State) (val : List Byte) (v : Half), s.cfg.protocol = .text → parseDec val = some v.toInt →
    exec (.txtULX val) s = .next (afterLine { s.txt.held with lx := v } (.update (.leftStickX v)) s) ∧
    exec (.txtULY val) s = .next (afterLine { s.txt.held with ly := v } (.update (.leftStickY v)) s) ∧
    exec (.txtURX val) s = .next (afterLine { s.txt.held with rx := v } (.update (.rightStickX v)) s) ∧
    exec (.txtURY val) s = .next (afterLine { s.txt.held with ry := v } (.update (.rightStickY v)) s)

/-- The two trigger updates and the button update (40 R142, R147, R148, R153). -/
def Obligations.TriggerAndButtonUpdateRowsMerge : Prop :=
  ∀ (s : State) (val : List Byte), s.cfg.protocol = .text →
    (∀ v : Byte, parseDec val = some (v.toNat : Int) →
      exec (.txtULT val) s = .next (afterLine { s.txt.held with lt := v } (.update (.leftTrigger v)) s) ∧
      exec (.txtURT val) s = .next (afterLine { s.txt.held with rt := v } (.update (.rightTrigger v)) s)) ∧
    ∀ v : Half, parseHex4 val = some v.toNat →
      exec (.txtUB val) s = .next (afterLine { s.txt.held with buttons := v } (.update (.buttons v)) s)

/-- What parse rejects before it looks at a field, each check only after those before it passed: terminator, star, checksum digits,
checksum value, tag, and for an update the colon and the field code (40 R132 to R137, R141; 60 R345). Then the updates: a value not of
its syntax is malformed, one out of its field's range is out of range (40 R142 to R148). -/
def Obligations.LinesAndUpdatesReject : Prop :=
  (∀ line : List Byte,
    let n := line.length
    let body := line.take (n - 4)
    ((n = 0 ∨ byteAt line (n - 1) ≠ 0x0A) → parse line = .error .txtMissingNewline) ∧
    (n ≠ 0 → byteAt line (n - 1) = 0x0A →
      ((n < 4 ∨ byteAt line (n - 4) ≠ 0x2A) → parse line = .error .txtMissingStar) ∧
      (4 ≤ n → byteAt line (n - 4) = 0x2A →
        ((hexVal (byteAt line (n - 3)) = none ∨ hexVal (byteAt line (n - 2)) = none) → parse line = .error .txtBadChecksumField) ∧
        ∀ h1 h0, hexVal (byteAt line (n - 3)) = some h1 → hexVal (byteAt line (n - 2)) = some h0 →
          ((xor8 body).toNat ≠ 16 * h1 + h0 → parse line = .error .txtChecksumMismatch) ∧
          ((xor8 body).toNat = 16 * h1 + h0 →
            (body.head? ≠ some 0x47 → body.head? ≠ some 0x55 → parse line = .error .txtUnknownTag) ∧
            (∀ rest, body = 0x55 :: rest → 0x3A ∉ rest → parse line = .error .txtMalformedField) ∧
            (∀ code val, body = 0x55 :: (code ++ 0x3A :: val) → 0x3A ∉ code →
              code ∉ [[0x42], [0x4C, 0x58], [0x4C, 0x59], [0x52, 0x58], [0x52, 0x59], [0x4C, 0x54], [0x52, 0x54]] →
              parse line = .error .txtUnknownFieldCode))))) ∧
  ∀ (s : State) (val : List Byte), s.cfg.protocol = .text →
    let malformed : Res := .next (afterReject .text .txtMalformedField s)
    let outOfRange : Res := .next (afterReject .text .txtOutOfRange s)
    (parseHex4 val = none → exec (.txtUB val) s = malformed) ∧
    (parseDec val = none →
      exec (.txtULX val) s = malformed ∧ exec (.txtULY val) s = malformed ∧ exec (.txtURX val) s = malformed ∧
      exec (.txtURY val) s = malformed ∧ exec (.txtULT val) s = malformed ∧ exec (.txtURT val) s = malformed) ∧
    (∀ v, parseDec val = some v → (v < -32768 ∨ 32767 < v) →
      exec (.txtULX val) s = outOfRange ∧ exec (.txtULY val) s = outOfRange ∧ exec (.txtURX val) s = outOfRange ∧
      exec (.txtURY val) s = outOfRange) ∧
    (∀ v, parseDec val = some v → (v < 0 ∨ 255 < v) →
      exec (.txtULT val) s = outOfRange ∧ exec (.txtURT val) s = outOfRange)

/-- Round trip of both serializers, for every state and every update (40 R158 (a)). -/
def Obligations.SerializedLinesParseBack : Prop :=
  (∀ g : GamepadState, ∃ l, serializeFull g 45 = .written l ∧ parse l = .ok (.full g)) ∧
  ∀ u : FieldUpdate, ∃ l, serializeUpdate u 14 = .written l ∧ parse l = .ok (.update u)

/-- Changing one byte before the star of an accepted line gives a checksum mismatch; changing any one byte never gives another decoded
value (40 R158 (b), (c)). -/
def Obligations.ChangedByteNeverGivesAnotherValue : Prop :=
  ∀ (line : List Byte) (m : LineMsg) (i : Nat) (b : Byte), parse line = .ok m → i < line.length → b ≠ byteAt line i →
    (i + 4 < line.length → parse (line.set i b) = .error .txtChecksumMismatch) ∧
    ∀ m', parse (line.set i b) = .ok m' → m' = m

/-- The serializers write the whole line or, when it does not fit, nothing; 45 and 14 bytes always suffice (40 R156). -/
def Obligations.SerializersNeverTruncate : Prop :=
  ∀ (g : GamepadState) (u : FieldUpdate) (cap : Nat),
    (cap < (fullLine g).length → serializeFull g cap = .bufferTooSmall) ∧
    ((fullLine g).length ≤ cap → serializeFull g cap = .written (fullLine g)) ∧
    (cap < (updateLine u).length → serializeUpdate u cap = .bufferTooSmall) ∧
    ((updateLine u).length ≤ cap → serializeUpdate u cap = .written (updateLine u)) ∧
    (fullLine g).length ≤ 45 ∧ (updateLine u).length ≤ 14

/-- A full-state line sent byte by byte publishes its state (40 R149 to R152, R158; 45 R305). -/
def Obligations.TextLineOnTheWirePublishes : Prop :=
  ∀ (s : State) (rest : List Event) (g : GamepadState), s.Inv → s.cfg.protocol = .text → s.txt.idx = 0 → s.txt.ovf = false →
    s.inbox = byteEvents (fullLine g) ++ rest →
    ∃ t : State, Sys2Proof.core.run (fullLine g).length s = .next t ∧ t.inbox = rest ∧ t.txt.idx = 0 ∧ t.txt.ovf = false ∧
      t.txt.held = g ∧ t.mbox = ⟨g, true⟩ ∧ t.pulses.evt = some (.fullState g) ∧ t.out = s.out

/-! CRSF -/

/-- In the sync scan a sync byte starts a candidate frame and any other byte is discarded; nothing else is written (41 R171, R172). -/
def Obligations.CrsfScanRows : Prop :=
  ∀ (b : Byte) (s : State), s.cfg.protocol = .crsf → s.crsf.st = .awaitSync →
    (b ∈ s.cfg.crsfSync → exec (.crsfSync b) s = .next { s with crsf := { s.crsf with st := .awaitLength } }) ∧
    (b ∉ s.cfg.crsfSync → exec (.crsfSkip b) s = .next s)

/-- The length byte: a legal one begins the frame, one over the maximum and one below 2 are rejected (41 R173 to R175). -/
def Obligations.CrsfLengthRow : Prop :=
  ∀ (b : Byte) (s : State), s.cfg.protocol = .crsf → s.crsf.st = .awaitLength → 2 ≤ s.cfg.crsfMaxLen →
    (2 ≤ b.toNat → b.toNat ≤ s.cfg.crsfMaxLen →
      exec (.crsfLen b) s = .next { s with crsf := { s.crsf with len := b, idx := 0, st := .accumulatePayload } }) ∧
    (s.cfg.crsfMaxLen < b.toNat → exec (.crsfLen b) s = .next (afterReject .crsf .crsfOverLength s)) ∧
    (b.toNat < 2 → exec (.crsfLen b) s = .next (afterReject .crsf .crsfUnderLength s))

/-- A byte of type or payload is stored at crsf.idx; after len - 1 bytes the CRC is awaited; nothing else changes (41 R178). -/
def Obligations.CrsfAccumulateRow : Prop :=
  ∀ (b : Byte) (s : State), s.cfg.protocol = .crsf → s.crsf.st = .accumulatePayload → s.crsf.buf.wf →
    s.crsf.idx.toNat < s.cfg.crsfMaxLen →
    ∃ t, exec (.crsfAcc b) s = .next t ∧
      (∀ a, t.crsf.buf.read a = if a = s.crsf.idx.toNat then b else s.crsf.buf.read a) ∧
      t.crsf.idx = s.crsf.idx + 1 ∧ t.crsf.len = s.crsf.len ∧
      t.crsf.st = (if s.crsf.idx.toNat + 2 = s.crsf.len.toNat then .awaitCrc else .accumulatePayload) ∧
      t = { s with crsf := t.crsf }

/-- The CRC byte: stored; a wrong one rejects the frame, a right one returns the framer to its scan and runs the frame row the type
byte selects on the payload, which completes (41 R179, R180; 42 R200). -/
def Obligations.CrsfCrcRow : Prop :=
  ∀ (b : Byte) (s : State), s.cfg.protocol = .crsf → s.crsf.st = .awaitCrc → s.crsf.buf.wf → 2 ≤ s.crsf.len.toNat →
    s.crsf.len.toNat ≤ s.cfg.crsfMaxLen → s.crsf.idx.toNat + 1 = s.crsf.len.toNat →
    ∃ buf : Memory, (∀ a, buf.read a = if a + 1 = s.crsf.len.toNat then b else s.crsf.buf.read a) ∧
      (b ≠ crc8 (s.crsf.buf.readRange 0 (s.crsf.len.toNat - 1)) →
        exec (.crsfCrc b) s = .next (afterReject .crsf .crsfCrcMismatch { s with crsf := { s.crsf with buf := buf } })) ∧
      (b = crc8 (s.crsf.buf.readRange 0 (s.crsf.len.toNat - 1)) →
        let scan : State := { s with crsf := ⟨.awaitSync, 0, 0, buf⟩ }
        let row := crsfInstr s.cfg (s.crsf.buf.read 0) (s.crsf.buf.readRange 1 (s.crsf.len.toNat - 2))
        exec (.crsfCrc b) s = exec row scan ∧ ∃ t, exec (.crsfCrc b) s = .next t ∧ t.crsf = scan.crsf)

/-- An RC frame of 22 payload bytes publishes the converted channels; one of another size is rejected (42 R201, R205). -/
def Obligations.RcChannelsRow : Prop :=
  ∀ (s : State) (payload : List Byte), s.cfg.protocol = .crsf →
    (payload.length = 22 →
      exec (.crsfRc payload) s =
        .next (afterPublish (channelsToGamepad (unpack payload) s.cfg.channelMap) (.rcChannels (unpack payload)) s)) ∧
    (payload.length ≠ 22 → exec (.crsfRc payload) s = .next (afterReject .crsf .crsfBadPayloadLength s))

/-- A telemetry frame is passed on as raw bytes, a frame of unknown type is ignored; nothing is published (42 R203, R204). -/
def Obligations.CrsfOtherFrameRows : Prop :=
  ∀ (s : State) (type : Byte) (payload : List Byte), s.cfg.protocol = .crsf → type ≠ s.cfg.crsfTypeRc →
    (type ∈ s.cfg.crsfKnownTelem → exec (.crsfTelem type payload) s = .next (afterEvent (.telemetry type payload) s)) ∧
    (type ∉ s.cfg.crsfKnownTelem → exec (.crsfUnknown type payload) s = .next (afterEvent (.ignoredType type) s))

/-- Once its length is accepted a CRSF frame ends after exactly the bytes it declares, whatever their values (41 R183). -/
def Obligations.CrsfFramerNeverWedges : Prop :=
  ∀ (s : State) (rest : List Event) (l : List Byte), s.Inv → s.cfg.protocol = .crsf →
    (s.crsf.st = .accumulatePayload ∨ s.crsf.st = .awaitCrc) → s.crsf.idx.toNat + l.length = s.crsf.len.toNat →
    s.inbox = byteEvents l ++ rest →
    ∃ t : State, Sys2Proof.core.run l.length s = .next t ∧ t.crsf.st = .awaitSync ∧ t.inbox = rest

/-- An RC frame sent byte by byte publishes its converted channels (30 R91, 41 R171 to R179, 42 R201, 45 R305). -/
def Obligations.CrsfFrameOnTheWirePublishes : Prop :=
  ∀ (s : State) (rest : List Event) (sync : Byte) (payload : List Byte), s.Inv → s.cfg.protocol = .crsf →
    s.crsf.st = .awaitSync → sync ∈ s.cfg.crsfSync → payload.length = 22 → 24 ≤ s.cfg.crsfMaxLen →
    s.inbox = byteEvents (crsfFrameOf sync s.cfg.crsfTypeRc payload) ++ rest →
    ∃ t : State, Sys2Proof.core.run 26 s = .next t ∧ t.inbox = rest ∧ t.crsf.st = .awaitSync ∧
      t.mbox = ⟨channelsToGamepad (unpack payload) s.cfg.channelMap, true⟩ ∧
      t.pulses.evt = some (.rcChannels (unpack payload)) ∧ t.out = s.out

/-- CRC-8: an appended byte gives CRC 0 exactly when it is the CRC, a sequence of zeros has CRC 0, and the check value and the corner
cases of its polynomial (41 R176, R177). CRC-16: two appended bytes, low one first, give CRC 0 exactly when they are the CRC; its initial
value, check value and corner cases (43 R238, R239); the bytes a frame's CRC covers, under both settings (43 R240). The parameters of both
are the published ones, which the spec takes from general knowledge (92 D8, D17): log 20. -/
def Obligations.CrcsDetectAndMatchTheirCheckValues : Prop :=
  let digits : List Byte := [0x31, 0x32, 0x33, 0x34, 0x35, 0x36, 0x37, 0x38, 0x39]
  (∀ (l : List Byte) (b : Byte), crc8 (l ++ [b]) = 0 ↔ b = crc8 l) ∧
  (∀ n : Nat, crc8 (List.replicate n 0) = 0) ∧ crc8 digits = 0xBC ∧
  crc8 [0x01] = 0xD5 ∧ crc8 [0x80] = 0xEF ∧ crc8 [0xFF] = 0xF9 ∧ crc8 [0x16] = 0xD3 ∧
  (∀ (l : List Byte) (lo hi : Byte), crc16 (l ++ [lo, hi]) = 0 ↔ hi ++ lo = crc16 l) ∧
  crc16 [] = 0xFFFF ∧ crc16 digits = 0x6F91 ∧
  crc16 [0x00] = 0x0F87 ∧ crc16 [0x01] = 0x1E0E ∧ crc16 [0x80] = 0x8B8F ∧ crc16 [0xFF] = 0x00FF ∧
  ∀ (len e : Byte) (hdr pay : List Byte),
    frameCrc false len hdr pay e = crc16 (hdr ++ pay ++ [e]) ∧ frameCrc true len hdr pay e = crc16 (len :: (hdr ++ pay ++ [e]))

/-- pack and unpack are inverse on 16 channels and on 22 bytes (42 R202). -/
def Obligations.PackAndUnpackAreInverse : Prop :=
  (∀ ch : Vector Channel 16, unpack (pack ch) = ch) ∧ ∀ p : List Byte, p.length = 22 → pack (unpack p) = p

/-- The byte-by-byte layout of the channels, the second eight as the first on bytes 11 to 21 (30 R94). -/
def Obligations.ChannelsByteByByte : Prop :=
  ∀ (p : List Byte) (j : Nat), p.length = 22 → j < 2 →
    let q := fun k => (byteAt p (11 * j + k)).toNat
    let ch := fun k => ((unpack p).toList.getD (8 * j + k) 0).toNat
    ch 0 = q 0 + 256 * (q 1 % 8) ∧ ch 1 = q 1 / 8 + 32 * (q 2 % 64) ∧ ch 2 = q 2 / 64 + 4 * q 3 + 1024 * (q 4 % 2) ∧
    ch 3 = q 4 / 2 + 128 * (q 5 % 16) ∧ ch 4 = q 5 / 16 + 16 * (q 6 % 128) ∧
    ch 5 = q 6 / 128 + 2 * q 7 + 512 * (q 8 % 4) ∧ ch 6 = q 8 / 4 + 64 * (q 9 % 32) ∧ ch 7 = q 9 / 32 + 8 * q 10

/-- The scaling function never leaves 0..full, so the outer clamps of both scalings change nothing (00 R10). -/
def Obligations.ScalingStaysInItsRange : Prop :=
  ∀ (v lo hi : Int) (inv : Bool), lo < hi →
    (∀ full : Int, 0 ≤ full → 0 ≤ lin v lo hi inv full ∧ lin v lo hi inv full ≤ full) ∧
    scaleStick v lo hi inv = lin v lo hi inv 65535 - 32768 ∧ scaleTrigger v lo hi inv = lin v lo hi inv 255

/-- The CRSF scales of sticks and triggers: the formula between the ends, the end values at and beyond the ends, both ways round, and both
scales are monotone, antitone when inverted (42 R207, R208, R211). -/
def Obligations.ChannelScaleEndsAndOrder : Prop :=
  ∀ v w : Int,
    (172 ≤ v → v ≤ 1811 →
      scaleStick v chanMin chanMax false = (2 * (v - 172) * 65535 + 1639) / 3278 - 32768 ∧
      scaleStick v chanMin chanMax true = (2 * (1811 - v) * 65535 + 1639) / 3278 - 32768 ∧
      scaleTrigger v chanMin chanMax false = (2 * (v - 172) * 255 + 1639) / 3278 ∧
      scaleTrigger v chanMin chanMax true = (2 * (1811 - v) * 255 + 1639) / 3278) ∧
    (v ≤ 172 → scaleStick v chanMin chanMax false = -32768 ∧ scaleStick v chanMin chanMax true = 32767 ∧
      scaleTrigger v chanMin chanMax false = 0 ∧ scaleTrigger v chanMin chanMax true = 255) ∧
    (1811 ≤ v → scaleStick v chanMin chanMax false = 32767 ∧ scaleStick v chanMin chanMax true = -32768 ∧
      scaleTrigger v chanMin chanMax false = 255 ∧ scaleTrigger v chanMin chanMax true = 0) ∧
    (v ≤ w → scaleStick v chanMin chanMax false ≤ scaleStick w chanMin chanMax false ∧
      scaleStick w chanMin chanMax true ≤ scaleStick v chanMin chanMax true ∧
      scaleTrigger v chanMin chanMax false ≤ scaleTrigger w chanMin chanMax false ∧
      scaleTrigger w chanMin chanMax true ≤ scaleTrigger v chanMin chanMax true)

/-- channels_to_gamepad field by field: a stick axis or trigger without an entry is 0, with one it is the scale of exactly its channel with
its inversion flag; a button bit without an entry is 0, with one it is set exactly when its channel is at or above 992
(42 R206 to R209). -/
def Obligations.ChannelsFollowTheirMappingEntries : Prop :=
  ∀ (ch : Vector Channel 16) (m : ChannelMapping),
    let g := channelsToGamepad ch m
    let stick (src : ChannelSource) : Int := scaleStick (ch[src.ch].toNat : Int) 172 1811 src.inv
    let trigger (src : ChannelSource) : Int := scaleTrigger (ch[src.ch].toNat : Int) 172 1811 src.inv
    (m.lx = none → g.lx = 0) ∧ (∀ src, m.lx = some src → g.lx.toInt = stick src) ∧
    (m.ly = none → g.ly = 0) ∧ (∀ src, m.ly = some src → g.ly.toInt = stick src) ∧
    (m.rx = none → g.rx = 0) ∧ (∀ src, m.rx = some src → g.rx.toInt = stick src) ∧
    (m.ry = none → g.ry = 0) ∧ (∀ src, m.ry = some src → g.ry.toInt = stick src) ∧
    (m.lt = none → g.lt = 0) ∧ (∀ src, m.lt = some src → (g.lt.toNat : Int) = trigger src) ∧
    (m.rt = none → g.rt = 0) ∧ (∀ src, m.rt = some src → (g.rt.toNat : Int) = trigger src) ∧
    ∀ i : Fin 16,
      (m.buttons[i] = none → g.buttons.getLsbD i = false) ∧
      (∀ c : Fin 16, m.buttons[i] = some c → (g.buttons.getLsbD i = true ↔ 992 ≤ ch[c].toNat))

/-- The telemetry encoder: nothing to encode exactly when every field is absent; else the frames of the parameter, each of which the
CRSF decoder accepts as a frame of its type and payload, or no byte when they do not fit (42 R212, 30 R110, 60 R354). -/
def Obligations.TelemetryFramesAreAccepted : Prop :=
  ∀ (tp : TelemetryPayload) (d : TelemetryData) (cap : Nat),
    (encodeTelemetry tp d cap = .nothingToEncode ↔ d.allAbsent = true) ∧
    (d.allAbsent = false →
      telemetryBytes (tp.frames d) ≠ [] ∧
      (cap < (telemetryBytes (tp.frames d)).length → encodeTelemetry tp d cap = .bufferTooSmall) ∧
      ((telemetryBytes (tp.frames d)).length ≤ cap → encodeTelemetry tp d cap = .written (telemetryBytes (tp.frames d)))) ∧
    (∀ f ∈ tp.frames d, ∀ c : Config, 0xC8 ∈ c.crsfSync → 62 ≤ c.crsfMaxLen →
      decodeCrsf c (crsfFrameOf telemetrySync f.1 f.2) = .ok (crsfInstr c f.1 f.2))

/-! MAVLink -/

/-- In the sync scan 0xFE selects the v1 and 0xFD the v2 header and any other byte is discarded (43 R231 to R233). -/
def Obligations.MavScanRows : Prop :=
  ∀ (b : Byte) (s : State), s.cfg.protocol = .mavlink → s.mav.st = .awaitSync →
    exec .mavSync1 s = .next { s with mav := { s.mav with ver := .v1, st := .awaitLength } } ∧
    exec .mavSync2 s = .next { s with mav := { s.mav with ver := .v2, st := .awaitLength } } ∧
    (b ≠ 0xFE → b ≠ 0xFD → exec (.mavSkip b) s = .next s)

/-- Every length byte is accepted; header bytes are stored one by one and after the last the payload or, for length 0, the CRC is
awaited (43 R234, R235). -/
def Obligations.MavLengthAndHeaderRows : Prop :=
  ∀ (b : Byte) (s : State), s.cfg.protocol = .mavlink →
    (s.mav.st = .awaitLength →
      exec (.mavLen b) s = .next { s with mav := { s.mav with len := b, hidx := 0, pidx := 0, st := .accumulateHeader } }) ∧
    (s.mav.st = .accumulateHeader → s.mav.hdr.wf → s.mav.hidx < 8 →
      ∃ t, exec (.mavHdr b) s = .next t ∧ (∀ a, t.mav.hdr.read a = if a = s.mav.hidx then b else s.mav.hdr.read a) ∧
        t = { s with mav := { s.mav with
          hdr := t.mav.hdr
          hidx := s.mav.hidx + 1
          st := if s.mav.hidx + 1 ≠ (match s.mav.ver with | .v1 => 4 | .v2 => 8) then .accumulateHeader
                else if s.mav.len = 0 then .awaitCrcLow else .accumulatePayload } })

/-- Payload bytes are stored one by one and after the last the CRC is awaited; the first CRC byte is kept (43 R236, R237). -/
def Obligations.MavPayloadAndCrcLowRows : Prop :=
  ∀ (b : Byte) (s : State), s.cfg.protocol = .mavlink →
    (s.mav.st = .accumulatePayload → s.mav.pay.wf → s.mav.pidx < s.cfg.mavMaxPayload →
      ∃ t, exec (.mavPay b) s = .next t ∧ (∀ a, t.mav.pay.read a = if a = s.mav.pidx then b else s.mav.pay.read a) ∧
        t = { s with mav := { s.mav with
          pay := t.mav.pay
          pidx := s.mav.pidx + 1
          st := if s.mav.pidx + 1 = s.mav.len.toNat then .awaitCrcLow else .accumulatePayload } }) ∧
    (s.mav.st = .awaitCrcLow → exec (.mavCrcLo b) s = .next { s with mav := { s.mav with crcLo := b, st := .awaitCrcHigh } })

/-- The last byte of a MAVLink frame: an unknown id is ignored whatever the CRC; a known id with a wrong CRC is rejected; with the right
one the message is decoded. The framer scans again, mav.ver and mav.crc_lo keep their values (43 R241 to R243, 44 R270). -/
def Obligations.MavLastByteRow : Prop :=
  ∀ (b : Byte) (s : State), s.cfg.protocol = .mavlink → s.mav.st = .awaitCrcHigh → s.mav.len.toNat ≤ s.cfg.mavMaxPayload →
    let hdr := s.mav.hdr.readRange 0 (hlen s.mav.ver)
    let pay := s.mav.pay.readRange 0 s.mav.len.toNat
    let id := msgIdOf s.mav.ver hdr
    let h := headerOf s.mav.ver hdr
    let scan : State := { s with mav := { s.mav with st := .awaitSync, len := 0, hidx := 0, pidx := 0 } }
    (s.cfg.extra id = none → exec (.mavCrcHi b) s = .next (afterEvent (.ignoredMsg id) scan)) ∧
    ∀ e, s.cfg.extra id = some e →
      (b ++ s.mav.crcLo ≠ frameCrc s.cfg.mavCrcCoversLen s.mav.len hdr pay e →
        exec (.mavCrcHi b) s = .next (afterReject .mavlink .mavCrcMismatch s)) ∧
      (b ++ s.mav.crcLo = frameCrc s.cfg.mavCrcCoversLen s.mav.len hdr pay e →
        (id = 0 → exec (.mavCrcHi b) s = .next { afterEvent (.heartbeat h.sysid h.compid) scan with
          pulses := { s.pulses with evt := some (.heartbeat h.sysid h.compid), linkPresent := true } }) ∧
        (id = 69 → exec (.mavCrcHi b) s =
          .next (afterPublish (manualToGamepad (manualFields pay) s.cfg.axisMap) (.manualControl (manualFields pay)) scan)) ∧
        (id ≠ 0 → id ≠ 69 → exec (.mavCrcHi b) s = .next (afterEvent (.ignoredMsg id) scan)))

/-- A heartbeat pulses link_present and publishes nothing, whatever its payload; a MANUAL_CONTROL message publishes its conversion,
whatever its length; another message is ignored (44 R271, R272; 43 R243). -/
def Obligations.MavMessageRows : Prop :=
  ∀ (s : State) (h : MavHeader) (id : MsgId) (payload : List Byte) (crc : Half), s.cfg.protocol = .mavlink →
    exec (.mavHeartbeat h payload) s =
      .next { s with pulses := { s.pulses with evt := some (.heartbeat h.sysid h.compid), linkPresent := true } } ∧
    exec (.mavManualControl h payload) s =
      .next (afterPublish (manualToGamepad (manualFields payload) s.cfg.axisMap) (.manualControl (manualFields payload)) s) ∧
    exec (.mavUnknown h id payload crc) s = .next (afterEvent (.ignoredMsg id) s)

/-- The MANUAL_CONTROL payload: each field from its two bytes, low byte first; a short payload reads as if extended with zeros, and
bytes from offset 13 on are ignored (44 R272, 30 R99). -/
def Obligations.ManualPayloadLayout : Prop :=
  (∀ b0 b1 b2 b3 b4 b5 b6 b7 b8 b9 b10 b11 b12 : Byte, ∀ more : List Byte,
    let f := manualFields ([b0, b1, b2, b3, b4, b5, b6, b7, b8, b9, b10, b11, b12] ++ more)
    f.x.toNat = b0.toNat + 256 * b1.toNat ∧ f.y.toNat = b2.toNat + 256 * b3.toNat ∧ f.z.toNat = b4.toNat + 256 * b5.toNat ∧
    f.r.toNat = b6.toNat + 256 * b7.toNat ∧ f.buttons.toNat = b8.toNat + 256 * b9.toNat ∧ f.target = b10 ∧
    f.buttons2.toNat = b11.toNat + 256 * b12.toNat) ∧
  ∀ (p : List Byte) (n : Nat), manualFields (p ++ List.replicate n 0) = manualFields p

/-- The trigger split: z is clamped to 0..1000; up to 500 the left trigger is the rounded share of 500 - z and the right one 0, above 500
the right trigger is the rounded share of z - 500 and the left one 0. So z = 0 gives left 255, z = 500 both 0, z = 1000 right 255, and at
most one trigger is ever non-zero (44 R275, R281). -/
def Obligations.TriggerSplitOfZ : Prop :=
  ∀ (f : ManualFields) (m : AxisMapping),
    let z := f.z.toInt
    let g := manualToGamepad f m
    (z ≤ 0 → g.lt = 255 ∧ g.rt = 0) ∧
    (0 ≤ z → z ≤ 500 → (g.lt.toNat : Int) = (2 * ((500 - z) * 255) + 500) / 1000 ∧ g.rt = 0) ∧
    (500 < z → z ≤ 1000 → (g.rt.toNat : Int) = (2 * ((z - 500) * 255) + 500) / 1000 ∧ g.lt = 0) ∧
    (1000 ≤ z → g.lt = 0 ∧ g.rt = 255) ∧
    (f.z = 0 → g.lt = 255 ∧ g.rt = 0) ∧ (f.z = 500 → g.lt = 0 ∧ g.rt = 0) ∧ (f.z = 1000 → g.lt = 0 ∧ g.rt = 255) ∧
    (g.lt = 0 ∨ g.rt = 0)

/-- The MANUAL_CONTROL axes: the scale by its formula between the ends, the ends at and beyond them, 0 at 0, monotone, antitone when
inverted. For every stick axis: it is the scale of the last of x, y, r whose entry targets it, with that entry's inversion flag, and 0
when none does. Buttons map directly and buttons2 is dropped (44 R273, R274, R276, R277; 10 R25). -/
def Obligations.ManualAxesAndButtons : Prop :=
  (∀ v w : Int,
    (-1000 ≤ v → v ≤ 1000 →
      scaleStick v (-1000) 1000 false = (2 * (v + 1000) * 65535 + 2000) / 4000 - 32768 ∧
      scaleStick v (-1000) 1000 true = (2 * (1000 - v) * 65535 + 2000) / 4000 - 32768) ∧
    scaleStick 0 (-1000) 1000 false = 0 ∧ scaleStick 0 (-1000) 1000 true = 0 ∧
    (v ≤ -1000 → scaleStick v (-1000) 1000 false = -32768 ∧ scaleStick v (-1000) 1000 true = 32767) ∧
    (1000 ≤ v → scaleStick v (-1000) 1000 false = 32767 ∧ scaleStick v (-1000) 1000 true = -32768) ∧
    (v ≤ w → scaleStick v (-1000) 1000 false ≤ scaleStick w (-1000) 1000 false ∧
      scaleStick w (-1000) 1000 true ≤ scaleStick v (-1000) 1000 true)) ∧
  ∀ (f : ManualFields) (m : AxisMapping) (a : StickAxis) (w : Half),
    let g := manualToGamepad f m
    (∀ inv, m.r = some ⟨a, inv⟩ → (axisOf g a).toInt = scaleStick f.r.toInt (-1000) 1000 inv) ∧
    (notDriving m.r a → ∀ inv, m.y = some ⟨a, inv⟩ → (axisOf g a).toInt = scaleStick f.y.toInt (-1000) 1000 inv) ∧
    (notDriving m.r a → notDriving m.y a → ∀ inv, m.x = some ⟨a, inv⟩ →
      (axisOf g a).toInt = scaleStick f.x.toInt (-1000) 1000 inv) ∧
    (notDriving m.r a → notDriving m.y a → notDriving m.x a → axisOf g a = 0) ∧
    g.buttons = f.buttons ∧ manualToGamepad { f with buttons2 := w } m = g

/-- Only a CRC-checked MANUAL_CONTROL frame publishes (70 R388). -/
def Obligations.OnlyCheckedManualControlPublishes : Prop :=
  ∀ (b : Byte) (s t : State), s.cfg.protocol = .mavlink → s.pulses.publish = none → exec (.inRx b) s = .next t →
    t.pulses.publish ≠ none →
    let hdr := s.mav.hdr.readRange 0 (hlen s.mav.ver)
    s.mav.st = .awaitCrcHigh ∧ msgIdOf s.mav.ver hdr = 69 ∧
    ∃ e, s.cfg.extra 69 = some e ∧
      b ++ s.mav.crcLo = frameCrc s.cfg.mavCrcCoversLen s.mav.len hdr (s.mav.pay.readRange 0 s.mav.len.toNat) e

/-- Once a sync byte is accepted a MAVLink frame ends after exactly 1 + hlen + len + 2 more bytes, whatever their values (43 R247). -/
def Obligations.MavFramerNeverWedges : Prop :=
  ∀ (s : State) (rest : List Event) (n : Byte) (l : List Byte), s.Inv → s.cfg.protocol = .mavlink → s.mav.st = .awaitLength →
    l.length = hlen s.mav.ver + n.toNat + 2 → s.inbox = byteEvents (n :: l) ++ rest →
    ∃ t : State, Sys2Proof.core.run (l.length + 1) s = .next t ∧ t.mav.st = .awaitSync ∧ t.inbox = rest

/-- A MANUAL_CONTROL frame of either header format sent byte by byte publishes its conversion (30 R95, R96; 43 R231 to R241; 44 R272). -/
def Obligations.MavFrameOnTheWirePublishes : Prop :=
  ∀ (s : State) (rest : List Event) (h : MavHeader) (payload : List Byte), s.Inv → s.cfg.protocol = .mavlink →
    s.mav.st = .awaitSync → payload.length ≤ 255 → (s.cfg.extra 69).isSome = true →
    s.inbox = byteEvents (mavFrameOf h 69 payload (crcFor s.cfg h 69 payload)) ++ rest →
    ∃ t : State, Sys2Proof.core.run (payload.length + hlen (headerVer h) + 4) s = .next t ∧ t.inbox = rest ∧
      t.mav.st = .awaitSync ∧ t.mbox = ⟨manualToGamepad (manualFields payload) s.cfg.axisMap, true⟩ ∧
      t.pulses.evt = some (.manualControl (manualFields payload)) ∧ t.out = s.out

/-! Mailbox and tasks -/

/-- Publish overwrites the cell and sets has_new in every state; Take gives the cell, clears has_new and keeps the cell
(45 R301, R302; Take with has_new = 0, which never occurs, does the same: log 9). -/
def Obligations.PublishAndTakeRows : Prop :=
  ∀ (g : GamepadState) (s : State),
    exec (.mboxPublish g) s = .next { s with mbox := ⟨g, true⟩, pulses := { s.pulses with publish := some g } } ∧
    exec .mboxTake s =
      .next { s with mbox := ⟨s.mbox.cell, false⟩, pulses := { s.pulses with take := some s.mbox.cell } }

/-- The output task wakes only when a value waits and only samples the flag; at readiness it takes the newest value, which mbox.has_new
says is there, and latches it; a readiness in any other state has no effect (45 R307, R308). -/
def Obligations.WakeAndReadyRows : Prop :=
  ∀ s : State,
    (s.out.st = .waitValue → s.mbox.hasNew = true → exec .outWake s = .next { s with out := { s.out with st := .waitReady } }) ∧
    (s.out.st = .waitValue → s.mbox.hasNew = false → exec .outWake s = .next s) ∧
    (s.out.st = .waitReady → s.mbox.hasNew = true →
      exec .outReady s = .next { s with
        mbox := ⟨s.mbox.cell, false⟩
        out := ⟨.sending, s.mbox.cell⟩
        pulses := { s.pulses with take := some s.mbox.cell } }) ∧
    (s.out.st ≠ .waitReady → exec .outReady s = .next s)

/-- A send that ends returns the task to WaitValue, a failed one with a pulse on fault[1], its value dropped and has_new unchanged; an
end of send in any other state has no effect. A receive error is one pulse on fault[0]; no register of any agent changes
(45 R306, R309, R310). -/
def Obligations.DoneAndReceiveErrorRows : Prop :=
  ∀ s : State,
    (s.out.st = .sending →
      exec (.outDone true) s = .next { s with out := { s.out with st := .waitValue } } ∧
      exec (.outDone false) s =
        .next { s with out := { s.out with st := .waitValue }, pulses := { s.pulses with faultOut := true } }) ∧
    (∀ ok, s.out.st ≠ .sending → exec (.outDone ok) s = .next s) ∧
    exec .inRxErr s = .next { s with pulses := { s.pulses with faultIn := true } }

/-- What the output ports show: an event with its kind, and its code when it is a reject; the pulses; snk_valid exactly while a report is
being sent, and the report's bus word (30 R108, 60 R341, R358). That the four accepted packets after which 45 R305 publishes have kind 0
is read from the two rules: log 13. -/
def Obligations.OutputPortsShowTheStep : Prop :=
  ∀ s : State,
    ((portOut s).evtValid = true ↔ s.pulses.evt ≠ none) ∧
    (∀ e, s.pulses.evt = some e →
      ((portOut s).evtKind = 4 ↔ ∃ c, e = .reject c) ∧
      ((portOut s).evtKind = 3 ↔ ∃ a b, e = .heartbeat a b) ∧
      ((portOut s).evtKind = 2 ↔ (∃ a, e = .ignoredType a) ∨ ∃ a, e = .ignoredMsg a) ∧
      ((portOut s).evtKind = 1 ↔ ∃ a l, e = .telemetry a l) ∧
      (portOut s).evtKind ≤ 4 ∧
      ((∀ c, e ≠ .reject c) → (portOut s).evtCode = 0)) ∧
    (∀ p ∈ ([(.txtMissingNewline, 1), (.txtMissingStar, 2), (.txtBadChecksumField, 3), (.txtChecksumMismatch, 4), (.txtUnknownTag, 5),
        (.txtUnknownFieldCode, 6), (.txtMalformedField, 7), (.txtOutOfRange, 8), (.txtLineTooLong, 9), (.crsfUnderLength, 16),
        (.crsfOverLength, 17), (.crsfCrcMismatch, 18), (.crsfBadPayloadLength, 19), (.mavCrcMismatch, 24)] :
        List (RejectCode × BitVec 5)),
      s.pulses.evt = some (.reject p.1) → (portOut s).evtCode = p.2) ∧
    (portOut s).fault.getLsbD 0 = s.pulses.faultIn ∧ (portOut s).fault.getLsbD 1 = s.pulses.faultOut ∧
    (portOut s).linkPresent = s.pulses.linkPresent ∧
    ((portOut s).snkValid = true ↔ s.out.st = .sending) ∧ (portOut s).snkData = toBus s.out.cur

/-- The mailbox is the only state the two tasks share. The input side leaves the output task alone and never clears has_new; the output
side leaves every parser and the cell alone, never sets has_new, and does the same whatever the parsers hold (20 R69, 45 R311,
60 R359). -/
def Obligations.MailboxIsTheOnlySharedState : Prop :=
  ∀ (s t : State) (i : Instr), exec i s = .next t →
    (((∃ b, i = .inRx b) ∨ i = .inRxErr) → t.out = s.out ∧ (s.mbox.hasNew = true → t.mbox.hasNew = true)) ∧
    ((i = .outWake ∨ i = .outReady ∨ ∃ ok, i = .outDone ok) →
      t.txt = s.txt ∧ t.crsf = s.crsf ∧ t.mav = s.mav ∧ t.mbox.cell = s.mbox.cell ∧
      (t.mbox.hasNew = true → s.mbox.hasNew = true) ∧
      ∀ (x : TxtRegs) (y : CrsfRegs) (z : MavRegs),
        exec i { s with txt := x, crsf := y, mav := z } = .next { t with txt := x, crsf := y, mav := z })

/-- What a received byte does to the parsers and what it emits do not depend on the mailbox or the output task (10 R41 (b)). -/
def Obligations.InputSideCannotReadTheMailbox : Prop :=
  ∀ (b : Byte) (s t : State) (m : MboxRegs) (o : OutRegs), exec (.inRx b) s = .next t →
    ∃ u, exec (.inRx b) { s with mbox := m, out := o } = .next u ∧ u.txt = t.txt ∧ u.crsf = t.crsf ∧ u.mav = t.mav ∧
      u.pulses = t.pulses ∧ u.out = o

/-- A Take and a Publish in one clock cycle: the take gives the old cell, then the cell gets the published value, and has_new ends set
(45 R304). That a cycle is one event with the output side first is the model's reading: log 12. -/
def Obligations.SameCyclePublishFollowsTake : Prop :=
  ∀ (s u : State) (rest : List Event) (p : PortIn) (g : GamepadState), s.inbox = .cycle p :: rest → p.rst = false →
    s.out.st = .waitReady → s.mbox.hasNew = true → p.snkReady = true → p.rxValid = true →
    exec (.inRx p.rxData) { s with inbox := rest, pulses := ⟨none, false, false, false, none, none⟩ } = .next u →
    u.pulses.publish = some g →
    ∃ t : State, step s = .next t ∧ t.pulses.take = some s.mbox.cell ∧ t.out = ⟨.sending, s.mbox.cell⟩ ∧
      t.pulses.publish = some g ∧ t.mbox = ⟨g, true⟩

/-- Over any run the values taken are a subsequence of the values published, in order, none taken twice for one publish; a value
waiting at the start counts as published before it (20 R68 (b), (c); 45 R313). -/
def Obligations.TakenValuesAreASublistOfPublished : Prop :=
  ∀ (k : Nat) (s : State), s.Inv →
    (taken k s).Sublist ((if s.mbox.hasNew then [s.mbox.cell] else []) ++ published k s)

/-- The latest published value wins: values published while the sink is awaited are superseded, and only the newest is latched for the
send (45 R308, R312). -/
def Obligations.LatestPublishWins : Prop :=
  ∀ (s a : State) (gs : List GamepadState) (g : GamepadState), s.out.st = .waitReady →
    execAll (gs.map .mboxPublish ++ [.mboxPublish g]) s = .next a →
    ∃ t, exec .outReady a = .next t ∧ t.out = ⟨.sending, g⟩ ∧ t.mbox = ⟨g, false⟩ ∧ t.pulses.take = some g
end

