-- ==== Sys2Proof/Laws/Memory.lean ====
section
/-! SUPPORT. The laws of a storage array: read after write, and every write keeps the canonical form. -/

namespace Sys2Proof.Machine

theorem Memory.wf_nil : Memory.wf [] := by decide

theorem Memory.wf_tail {c : Host.Cell} {m : Memory} (h : Memory.wf (c :: m)) : Memory.wf m :=
  ⟨(List.pairwise_cons.1 h.1).2, fun d hd => h.2 d (List.mem_cons_of_mem _ hd)⟩

theorem Memory.wf_head_lt {c : Host.Cell} {m : Memory} (h : Memory.wf (c :: m)) : ∀ d ∈ m, c.1 < d.1 :=
  (List.pairwise_cons.1 h.1).1

/-- An index listed nowhere reads as blank. -/
theorem Memory.read_of_unlisted {m : Memory} {i : Nat} (h : ∀ c ∈ m, c.1 ≠ i) : m.read i = Memory.blank := by
  induction m with
  | nil => rfl
  | cons c m ih =>
    obtain ⟨a, v⟩ := c
    have ha : a ≠ i := h (a, v) List.mem_cons_self
    simp only [Memory.read, ha, if_false]
    exact ih fun d hd => h d (List.mem_cons_of_mem _ hd)

/-- Read after write: the written index gives the byte, every other index what it gave before. -/
theorem Memory.read_write {m : Memory} (h : m.wf) (i j : Nat) (v : Byte) :
    (m.write i v).read j = if j = i then v else m.read j := by
  induction m with
  | nil =>
    by_cases hv : v = Memory.blank <;> by_cases hj : i = j <;> simp [Memory.write, Memory.read, hv, hj, eq_comm]
  | cons c m ih =>
    obtain ⟨a, w⟩ := c
    have ih := ih (Memory.wf_tail h)
    have hlt := Memory.wf_head_lt h
    have hun : ∀ k, k ≤ a → Memory.read m k = Memory.blank := fun k hk =>
      Memory.read_of_unlisted fun d hd => by have : a < d.1 := hlt d hd; omega
    have hunc : ∀ k, k < a → Memory.read ((a, w) :: m) k = Memory.blank := fun k hk => by
      rw [Memory.read, if_neg (by omega)]; exact hun k (by omega)
    unfold Memory.write
    split
    · split
      · rename_i hia hv
        by_cases hj : j = i
        · rw [if_pos hj, hj, hunc i hia, hv]
        · rw [if_neg hj]
      · rw [Memory.read]; simp only [eq_comm]
    · split
      · rename_i _ hia
        subst hia
        split
        · rename_i hv
          by_cases hj : j = i
          · rw [if_pos hj, hj, hun i (Nat.le_refl _), hv]
          · rw [if_neg hj, Memory.read, if_neg (by omega)]
        · rw [Memory.read, Memory.read]
          by_cases hj : j = i
          · simp [hj]
          · rw [if_neg (by omega), if_neg hj, if_neg (by omega)]
      · rw [Memory.read, Memory.read, ih]
        by_cases hj : a = j
        · rw [if_pos hj, if_pos hj, if_neg (by omega)]
        · simp [hj]

theorem Memory.read_write_same {m : Memory} (h : m.wf) (i : Nat) (v : Byte) : (m.write i v).read i = v := by
  simp [Memory.read_write h]

theorem Memory.read_write_other {m : Memory} (h : m.wf) {i j : Nat} (hj : j ≠ i) (v : Byte) :
    (m.write i v).read j = m.read j := by
  simp [Memory.read_write h, hj]

/-- A write lists no index but the written one and those listed before. -/
theorem Memory.mem_write {m : Memory} {i : Nat} {v : Byte} {c : Host.Cell} (hc : c ∈ m.write i v) : c = (i, v) ∨ c ∈ m := by
  induction m with
  | nil =>
    unfold Memory.write at hc
    split at hc <;> simp_all
  | cons d m ih =>
    obtain ⟨a, w⟩ := d
    unfold Memory.write at hc
    split at hc
    · split at hc
      · exact .inr hc
      · exact List.mem_cons.1 hc
    · split at hc
      · split at hc
        · exact .inr (List.mem_cons_of_mem _ hc)
        · exact (List.mem_cons.1 hc).imp id (List.mem_cons_of_mem _)
      · rcases List.mem_cons.1 hc with h | h
        · exact .inr (h ▸ List.mem_cons_self)
        · exact (ih h).imp id (List.mem_cons_of_mem _)

/-- A write keeps the canonical form. -/
theorem Memory.write_wf {m : Memory} (h : m.wf) (i : Nat) (v : Byte) : (m.write i v).wf := by
  induction m with
  | nil =>
    unfold Memory.write
    split
    · exact h
    · rename_i hv; exact ⟨List.pairwise_singleton _ _, by simpa using hv⟩
  | cons c m ih =>
    obtain ⟨a, w⟩ := c
    have hlt := Memory.wf_head_lt h
    have htl := Memory.wf_tail h
    unfold Memory.write
    split
    · split
      · exact h
      · rename_i hia hv
        refine ⟨List.pairwise_cons.2 ⟨fun d hd => ?_, h.1⟩, fun d hd => ?_⟩
        · rcases List.mem_cons.1 hd with hd | hd
          · subst hd; exact hia
          · exact lt_trans hia (hlt d hd)
        · rcases List.mem_cons.1 hd with hd | hd
          · subst hd; exact hv
          · exact h.2 d hd
    · split
      · rename_i _ hia
        subst hia
        split
        · exact htl
        · rename_i hv
          refine ⟨List.pairwise_cons.2 ⟨hlt, htl.1⟩, fun d hd => ?_⟩
          rcases List.mem_cons.1 hd with hd | hd
          · subst hd; exact hv
          · exact htl.2 d hd
      · rename_i h1 h2
        have ih := ih htl
        refine ⟨List.pairwise_cons.2 ⟨fun d hd => ?_, ih.1⟩, fun d hd => ?_⟩
        · rcases Memory.mem_write hd with hd | hd
          · subst hd; show a < i; omega
          · exact hlt d hd
        · rcases List.mem_cons.1 hd with hd | hd
          · subst hd; exact h.2 (a, w) List.mem_cons_self
          · exact ih.2 d hd

/-- Writing a byte sequence keeps the canonical form. -/
theorem Memory.writeRange_wf {m : Memory} (h : m.wf) (i : Nat) (s : List Byte) : (m.writeRange i s).wf := by
  induction s generalizing m i with
  | nil => exact h
  | cons v s ih => exact ih (Memory.write_wf h i v) (i + 1)

/-- A write inside an array's size keeps every listed index inside it. -/
theorem Memory.write_bounded {m : Memory} {n i : Nat} {v : Byte} (h : ∀ c ∈ m, c.1 < n) (hi : i < n) :
    ∀ c ∈ m.write i v, c.1 < n := by
  intro c hc
  rcases Memory.mem_write hc with hc | hc
  · subst hc; exact hi
  · exact h c hc

@[simp] theorem Memory.readRange_zero (m : Memory) (i : Nat) : m.readRange i 0 = [] := rfl

@[simp] theorem Memory.readRange_length (m : Memory) (i n : Nat) : (m.readRange i n).length = n := by
  simp [Memory.readRange]

/-- One more byte at the end of a range. -/
theorem Memory.readRange_succ (m : Memory) (i n : Nat) : m.readRange i (n + 1) = m.readRange i n ++ [m.read (i + n)] := by
  simp [Memory.readRange, List.range'_1_concat]

/-- A range read does not see a write outside it. -/
theorem Memory.readRange_write_other {m : Memory} (h : m.wf) {i n j : Nat} (hj : j < i ∨ i + n ≤ j) (v : Byte) :
    (m.write j v).readRange i n = m.readRange i n := by
  unfold Memory.readRange
  refine List.map_congr_left fun k hk => ?_
  rw [List.mem_range'_1] at hk
  exact Memory.read_write_other h (by omega) v

end Sys2Proof.Machine
end

