-- ==== Sys2Proof/Laws/State.lean ====
section
/-! SUPPORT. What each update of State leaves in each field: one lemma per field per update, true by rfl. -/

namespace Sys2Proof.Machine

@[simp] theorem State.setTxt_cfg (s : State) (r : TxtRegs) : (s.setTxt r).cfg = s.cfg := rfl
@[simp] theorem State.setTxt_txt (s : State) (r : TxtRegs) : (s.setTxt r).txt = r := rfl
@[simp] theorem State.setTxt_crsf (s : State) (r : TxtRegs) : (s.setTxt r).crsf = s.crsf := rfl
@[simp] theorem State.setTxt_mav (s : State) (r : TxtRegs) : (s.setTxt r).mav = s.mav := rfl
@[simp] theorem State.setTxt_mbox (s : State) (r : TxtRegs) : (s.setTxt r).mbox = s.mbox := rfl
@[simp] theorem State.setTxt_out (s : State) (r : TxtRegs) : (s.setTxt r).out = s.out := rfl
@[simp] theorem State.setTxt_pulses (s : State) (r : TxtRegs) : (s.setTxt r).pulses = s.pulses := rfl
@[simp] theorem State.setTxt_inbox (s : State) (r : TxtRegs) : (s.setTxt r).inbox = s.inbox := rfl

@[simp] theorem State.setCrsf_cfg (s : State) (r : CrsfRegs) : (s.setCrsf r).cfg = s.cfg := rfl
@[simp] theorem State.setCrsf_txt (s : State) (r : CrsfRegs) : (s.setCrsf r).txt = s.txt := rfl
@[simp] theorem State.setCrsf_crsf (s : State) (r : CrsfRegs) : (s.setCrsf r).crsf = r := rfl
@[simp] theorem State.setCrsf_mav (s : State) (r : CrsfRegs) : (s.setCrsf r).mav = s.mav := rfl
@[simp] theorem State.setCrsf_mbox (s : State) (r : CrsfRegs) : (s.setCrsf r).mbox = s.mbox := rfl
@[simp] theorem State.setCrsf_out (s : State) (r : CrsfRegs) : (s.setCrsf r).out = s.out := rfl
@[simp] theorem State.setCrsf_pulses (s : State) (r : CrsfRegs) : (s.setCrsf r).pulses = s.pulses := rfl
@[simp] theorem State.setCrsf_inbox (s : State) (r : CrsfRegs) : (s.setCrsf r).inbox = s.inbox := rfl

@[simp] theorem State.setMav_cfg (s : State) (r : MavRegs) : (s.setMav r).cfg = s.cfg := rfl
@[simp] theorem State.setMav_txt (s : State) (r : MavRegs) : (s.setMav r).txt = s.txt := rfl
@[simp] theorem State.setMav_crsf (s : State) (r : MavRegs) : (s.setMav r).crsf = s.crsf := rfl
@[simp] theorem State.setMav_mav (s : State) (r : MavRegs) : (s.setMav r).mav = r := rfl
@[simp] theorem State.setMav_mbox (s : State) (r : MavRegs) : (s.setMav r).mbox = s.mbox := rfl
@[simp] theorem State.setMav_out (s : State) (r : MavRegs) : (s.setMav r).out = s.out := rfl
@[simp] theorem State.setMav_pulses (s : State) (r : MavRegs) : (s.setMav r).pulses = s.pulses := rfl
@[simp] theorem State.setMav_inbox (s : State) (r : MavRegs) : (s.setMav r).inbox = s.inbox := rfl

@[simp] theorem State.setMbox_cfg (s : State) (r : MboxRegs) : (s.setMbox r).cfg = s.cfg := rfl
@[simp] theorem State.setMbox_txt (s : State) (r : MboxRegs) : (s.setMbox r).txt = s.txt := rfl
@[simp] theorem State.setMbox_crsf (s : State) (r : MboxRegs) : (s.setMbox r).crsf = s.crsf := rfl
@[simp] theorem State.setMbox_mav (s : State) (r : MboxRegs) : (s.setMbox r).mav = s.mav := rfl
@[simp] theorem State.setMbox_mbox (s : State) (r : MboxRegs) : (s.setMbox r).mbox = r := rfl
@[simp] theorem State.setMbox_out (s : State) (r : MboxRegs) : (s.setMbox r).out = s.out := rfl
@[simp] theorem State.setMbox_pulses (s : State) (r : MboxRegs) : (s.setMbox r).pulses = s.pulses := rfl
@[simp] theorem State.setMbox_inbox (s : State) (r : MboxRegs) : (s.setMbox r).inbox = s.inbox := rfl

@[simp] theorem State.setOut_cfg (s : State) (r : OutRegs) : (s.setOut r).cfg = s.cfg := rfl
@[simp] theorem State.setOut_txt (s : State) (r : OutRegs) : (s.setOut r).txt = s.txt := rfl
@[simp] theorem State.setOut_crsf (s : State) (r : OutRegs) : (s.setOut r).crsf = s.crsf := rfl
@[simp] theorem State.setOut_mav (s : State) (r : OutRegs) : (s.setOut r).mav = s.mav := rfl
@[simp] theorem State.setOut_mbox (s : State) (r : OutRegs) : (s.setOut r).mbox = s.mbox := rfl
@[simp] theorem State.setOut_out (s : State) (r : OutRegs) : (s.setOut r).out = r := rfl
@[simp] theorem State.setOut_pulses (s : State) (r : OutRegs) : (s.setOut r).pulses = s.pulses := rfl
@[simp] theorem State.setOut_inbox (s : State) (r : OutRegs) : (s.setOut r).inbox = s.inbox := rfl

@[simp] theorem State.setPulses_cfg (s : State) (r : Pulses) : (s.setPulses r).cfg = s.cfg := rfl
@[simp] theorem State.setPulses_txt (s : State) (r : Pulses) : (s.setPulses r).txt = s.txt := rfl
@[simp] theorem State.setPulses_crsf (s : State) (r : Pulses) : (s.setPulses r).crsf = s.crsf := rfl
@[simp] theorem State.setPulses_mav (s : State) (r : Pulses) : (s.setPulses r).mav = s.mav := rfl
@[simp] theorem State.setPulses_mbox (s : State) (r : Pulses) : (s.setPulses r).mbox = s.mbox := rfl
@[simp] theorem State.setPulses_out (s : State) (r : Pulses) : (s.setPulses r).out = s.out := rfl
@[simp] theorem State.setPulses_pulses (s : State) (r : Pulses) : (s.setPulses r).pulses = r := rfl
@[simp] theorem State.setPulses_inbox (s : State) (r : Pulses) : (s.setPulses r).inbox = s.inbox := rfl

@[simp] theorem emit_cfg (e : OutEvent) (s : State) : (emit e s).cfg = s.cfg := rfl
@[simp] theorem emit_txt (e : OutEvent) (s : State) : (emit e s).txt = s.txt := rfl
@[simp] theorem emit_crsf (e : OutEvent) (s : State) : (emit e s).crsf = s.crsf := rfl
@[simp] theorem emit_mav (e : OutEvent) (s : State) : (emit e s).mav = s.mav := rfl
@[simp] theorem emit_mbox (e : OutEvent) (s : State) : (emit e s).mbox = s.mbox := rfl
@[simp] theorem emit_out (e : OutEvent) (s : State) : (emit e s).out = s.out := rfl
@[simp] theorem emit_pulses (e : OutEvent) (s : State) : (emit e s).pulses = { s.pulses with evt := some e } := rfl
@[simp] theorem emit_inbox (e : OutEvent) (s : State) : (emit e s).inbox = s.inbox := rfl

@[simp] theorem pulseLink_cfg (s : State) : (pulseLink s).cfg = s.cfg := rfl
@[simp] theorem pulseLink_txt (s : State) : (pulseLink s).txt = s.txt := rfl
@[simp] theorem pulseLink_crsf (s : State) : (pulseLink s).crsf = s.crsf := rfl
@[simp] theorem pulseLink_mav (s : State) : (pulseLink s).mav = s.mav := rfl
@[simp] theorem pulseLink_mbox (s : State) : (pulseLink s).mbox = s.mbox := rfl
@[simp] theorem pulseLink_out (s : State) : (pulseLink s).out = s.out := rfl
@[simp] theorem pulseLink_pulses (s : State) : (pulseLink s).pulses = { s.pulses with linkPresent := true } := rfl
@[simp] theorem pulseLink_inbox (s : State) : (pulseLink s).inbox = s.inbox := rfl

@[simp] theorem pulseFaultIn_cfg (s : State) : (pulseFaultIn s).cfg = s.cfg := rfl
@[simp] theorem pulseFaultIn_txt (s : State) : (pulseFaultIn s).txt = s.txt := rfl
@[simp] theorem pulseFaultIn_crsf (s : State) : (pulseFaultIn s).crsf = s.crsf := rfl
@[simp] theorem pulseFaultIn_mav (s : State) : (pulseFaultIn s).mav = s.mav := rfl
@[simp] theorem pulseFaultIn_mbox (s : State) : (pulseFaultIn s).mbox = s.mbox := rfl
@[simp] theorem pulseFaultIn_out (s : State) : (pulseFaultIn s).out = s.out := rfl
@[simp] theorem pulseFaultIn_pulses (s : State) : (pulseFaultIn s).pulses = { s.pulses with faultIn := true } := rfl
@[simp] theorem pulseFaultIn_inbox (s : State) : (pulseFaultIn s).inbox = s.inbox := rfl

@[simp] theorem pulseFaultOut_cfg (s : State) : (pulseFaultOut s).cfg = s.cfg := rfl
@[simp] theorem pulseFaultOut_txt (s : State) : (pulseFaultOut s).txt = s.txt := rfl
@[simp] theorem pulseFaultOut_crsf (s : State) : (pulseFaultOut s).crsf = s.crsf := rfl
@[simp] theorem pulseFaultOut_mav (s : State) : (pulseFaultOut s).mav = s.mav := rfl
@[simp] theorem pulseFaultOut_mbox (s : State) : (pulseFaultOut s).mbox = s.mbox := rfl
@[simp] theorem pulseFaultOut_out (s : State) : (pulseFaultOut s).out = s.out := rfl
@[simp] theorem pulseFaultOut_pulses (s : State) : (pulseFaultOut s).pulses = { s.pulses with faultOut := true } := rfl
@[simp] theorem pulseFaultOut_inbox (s : State) : (pulseFaultOut s).inbox = s.inbox := rfl

@[simp] theorem publish_cfg (g : GamepadState) (s : State) : (publish g s).cfg = s.cfg := rfl
@[simp] theorem publish_txt (g : GamepadState) (s : State) : (publish g s).txt = s.txt := rfl
@[simp] theorem publish_crsf (g : GamepadState) (s : State) : (publish g s).crsf = s.crsf := rfl
@[simp] theorem publish_mav (g : GamepadState) (s : State) : (publish g s).mav = s.mav := rfl
@[simp] theorem publish_mbox (g : GamepadState) (s : State) : (publish g s).mbox = ⟨g, true⟩ := rfl
@[simp] theorem publish_out (g : GamepadState) (s : State) : (publish g s).out = s.out := rfl
@[simp] theorem publish_pulses (g : GamepadState) (s : State) : (publish g s).pulses = { s.pulses with publish := some g } := rfl
@[simp] theorem publish_inbox (g : GamepadState) (s : State) : (publish g s).inbox = s.inbox := rfl

@[simp] theorem take_cfg (s : State) : (take s).cfg = s.cfg := rfl
@[simp] theorem take_txt (s : State) : (take s).txt = s.txt := rfl
@[simp] theorem take_crsf (s : State) : (take s).crsf = s.crsf := rfl
@[simp] theorem take_mav (s : State) : (take s).mav = s.mav := rfl
@[simp] theorem take_mbox (s : State) : (take s).mbox = ⟨s.mbox.cell, false⟩ := rfl
@[simp] theorem take_out (s : State) : (take s).out = s.out := rfl
@[simp] theorem take_pulses (s : State) : (take s).pulses = { s.pulses with take := some s.mbox.cell } := rfl
@[simp] theorem take_inbox (s : State) : (take s).inbox = s.inbox := rfl

@[simp] theorem accept_cfg (rest : List Event) (s : State) : (accept rest s).cfg = s.cfg := rfl
@[simp] theorem accept_txt (rest : List Event) (s : State) : (accept rest s).txt = s.txt := rfl
@[simp] theorem accept_crsf (rest : List Event) (s : State) : (accept rest s).crsf = s.crsf := rfl
@[simp] theorem accept_mav (rest : List Event) (s : State) : (accept rest s).mav = s.mav := rfl
@[simp] theorem accept_mbox (rest : List Event) (s : State) : (accept rest s).mbox = s.mbox := rfl
@[simp] theorem accept_out (rest : List Event) (s : State) : (accept rest s).out = s.out := rfl
@[simp] theorem accept_pulses (rest : List Event) (s : State) : (accept rest s).pulses = Pulses.quiet := rfl
@[simp] theorem accept_inbox (rest : List Event) (s : State) : (accept rest s).inbox = rest := rfl

@[simp] theorem applyReset_cfg (s : State) : (applyReset s).cfg = s.cfg := rfl
@[simp] theorem applyReset_txt (s : State) : (applyReset s).txt = TxtRegs.reset := rfl
@[simp] theorem applyReset_crsf (s : State) : (applyReset s).crsf = CrsfRegs.reset := rfl
@[simp] theorem applyReset_mav (s : State) : (applyReset s).mav = MavRegs.reset := rfl
@[simp] theorem applyReset_mbox (s : State) : (applyReset s).mbox = MboxRegs.reset := rfl
@[simp] theorem applyReset_out (s : State) : (applyReset s).out = OutRegs.reset := rfl
@[simp] theorem applyReset_pulses (s : State) : (applyReset s).pulses = Pulses.quiet := rfl
@[simp] theorem applyReset_inbox (s : State) : (applyReset s).inbox = s.inbox := rfl

/-- A write to an array touches that array alone: the other arrays, and every field that holds none. -/
theorem State.setBuf_fields (s : State) (b : BufId) (m : Memory) :
    (s.setBuf b m).cfg = s.cfg ∧ (s.setBuf b m).mbox = s.mbox ∧ (s.setBuf b m).out = s.out ∧
      (s.setBuf b m).pulses = s.pulses ∧ (s.setBuf b m).inbox = s.inbox := by
  cases b <;> exact ⟨rfl, rfl, rfl, rfl, rfl⟩

@[simp] theorem State.setBuf_same (s : State) (b : BufId) (m : Memory) : (s.setBuf b m).buf b = m := by
  cases b <;> rfl

theorem State.setBuf_other (s : State) {b c : BufId} (h : c ≠ b) (m : Memory) : (s.setBuf b m).buf c = s.buf c := by
  cases b <;> cases c <;> first | rfl | exact absurd rfl h

@[simp] theorem State.setBuf_txt (s : State) (m : Memory) : s.setBuf .txtBuf m = s.setTxt { s.txt with buf := m } := rfl
@[simp] theorem State.setBuf_crsf (s : State) (m : Memory) : s.setBuf .crsfBuf m = s.setCrsf { s.crsf with buf := m } := rfl
@[simp] theorem State.setBuf_hdr (s : State) (m : Memory) : s.setBuf .mavHdr m = s.setMav { s.mav with hdr := m } := rfl
@[simp] theorem State.setBuf_pay (s : State) (m : Memory) : s.setBuf .mavPay m = s.setMav { s.mav with pay := m } := rfl

@[simp] theorem State.buf_txt (s : State) : s.buf .txtBuf = s.txt.buf := rfl
@[simp] theorem State.buf_crsf (s : State) : s.buf .crsfBuf = s.crsf.buf := rfl
@[simp] theorem State.buf_hdr (s : State) : s.buf .mavHdr = s.mav.hdr := rfl
@[simp] theorem State.buf_pay (s : State) : s.buf .mavPay = s.mav.pay := rfl

@[simp] theorem Config.cap_txt (c : Config) : Config.cap c .txtBuf = c.textLineMax - 1 := rfl
@[simp] theorem Config.cap_crsf (c : Config) : Config.cap c .crsfBuf = c.crsfMaxLen := rfl
@[simp] theorem Config.cap_hdr (c : Config) : Config.cap c .mavHdr = 8 := rfl
@[simp] theorem Config.cap_pay (c : Config) : Config.cap c .mavPay = c.mavMaxPayload := rfl

end Sys2Proof.Machine
end

