-- ==== Sys2Proof/Laws/Ops.lean ====
section
/-! SUPPORT. One lemma per shared operation: everything it can do. -/

namespace Sys2Proof.Machine

/-- memRead answers the bytes of the range exactly when the range lies in the array. -/
theorem memRead_eq_some {s : State} {b : BufId} {i n : Nat} {l : List Byte} :
    s.memRead b i n = some l ↔ i + n ≤ Config.cap s.cfg b ∧ l = (s.buf b).readRange i n := by
  unfold State.memRead
  split <;> simp_all [eq_comm]

theorem memRead_eq_none {s : State} {b : BufId} {i n : Nat} : s.memRead b i n = none ↔ Config.cap s.cfg b < i + n := by
  unfold State.memRead
  split <;> simp_all

/-- memWrite answers the state with that one byte written exactly when the index lies in the array. -/
theorem memWrite_eq_some {s t : State} {b : BufId} {i : Nat} {v : Byte} :
    s.memWrite b i v = some t ↔ i < Config.cap s.cfg b ∧ t = s.setBuf b ((s.buf b).write i v) := by
  unfold State.memWrite
  split <;> simp_all [eq_comm]

theorem memWrite_eq_none {s : State} {b : BufId} {i : Nat} {v : Byte} :
    s.memWrite b i v = none ↔ Config.cap s.cfg b ≤ i := by
  unfold State.memWrite
  split <;> simp_all

/-- An array write keeps the canonical form and the size of that array, and leaves the others as they are. -/
theorem memWrite_keeps_arrays {s t : State} {b c : BufId} {i : Nat} {v : Byte} (h : s.memWrite b i v = some t)
    (hc : s.ArrayInv c) : t.ArrayInv c := by
  obtain ⟨hi, rfl⟩ := memWrite_eq_some.1 h
  have hcfg := (State.setBuf_fields s b ((s.buf b).write i v)).1
  unfold State.ArrayInv
  rw [hcfg]
  by_cases hbc : c = b
  · subst hbc
    rw [State.setBuf_same]
    exact ⟨Memory.write_wf hc.1 i v, Memory.write_bounded hc.2 hi⟩
  · rw [State.setBuf_other s hbc]
    exact hc

/-- The reject entry is exactly the state the spec describes. -/
theorem raiseReject_eq (p : Protocol) (c : RejectCode) (s : State) : raiseReject p c s = afterReject p c s := by
  cases p <;> rfl

/-- Emitting and publishing is exactly the state after an accepted packet. -/
theorem publish_emit_eq (g : GamepadState) (e : OutEvent) (s : State) : publish g (emit e s) = afterPublish g e s := rfl

/-- The end of a line: the reject entry, or the held state replaced and published. -/
theorem finishLine_eq (r : Except RejectCode LineMsg) (s : State) :
    finishLine r s = match r with
      | .error c => afterReject .text c s
      | .ok m => afterLine (heldAfter s.txt.held m) (lineEvent m) s := by
  cases r with
  | error c => exact raiseReject_eq .text c s
  | ok m => rfl

/-- The scan state keeps everything but the framer's own registers. -/
theorem toScan_fields (p : Protocol) (s : State) :
    (toScan p s).cfg = s.cfg ∧ (toScan p s).mbox = s.mbox ∧ (toScan p s).out = s.out ∧ (toScan p s).pulses = s.pulses ∧
      (toScan p s).inbox = s.inbox := by
  cases p <;> exact ⟨rfl, rfl, rfl, rfl, rfl⟩

/-- A row that finishes a line answers a next state. -/
theorem textRow_eq (k : LineKind) (operand : List Byte) (s : State) (h : s.cfg.protocol = .text) :
    textRow k operand s = .next (finishLine (lineValue k operand) s) := by
  simp [textRow, h]

/-- A row of the text parser takes no step when another parser is present. -/
theorem textRow_absent (k : LineKind) (operand : List Byte) (s : State) (h : s.cfg.protocol ≠ .text) :
    textRow k operand s = .next s := by
  simp [textRow, h]

/-- A line kind runs the row of that kind. -/
theorem runLine_eq (k : LineKind) (operand : List Byte) (s : State) : runLine k operand s = textRow k operand s := by
  cases k <;> rfl

/-- Running a code that decodes is running its instruction. -/
theorem runCode_ok {code : Code} {s : State} {i : Instr} (h : decode s.cfg code = .ok i) : runCode code s = exec i s := by
  simp [runCode, h]

/-- Instructions in sequence: all of them ran, each in the state the one before it left. -/
theorem execAll_cons (i : Instr) (is : List Instr) (s t : State) (h : exec i s = .next t) : execAll (i :: is) s = execAll is t := by
  simp [execAll, h]

/-- Replacing one stick axis replaces that axis and no other. -/
@[simp] theorem axisOf_setAxis (g : GamepadState) (a b : StickAxis) (v : Half) :
    axisOf (setAxis g a v) b = if b = a then v else axisOf g b := by
  cases a <;> cases b <;> rfl

/-- An absent entry drives no axis. -/
@[simp] theorem notDriving_none (a : StickAxis) : notDriving none a := by simp [notDriving]

/-- A present entry leaves alone exactly the axes that are not its target. -/
@[simp] theorem notDriving_some (t : AxisTarget) (a : StickAxis) : notDriving (some t) a ↔ t.dst ≠ a := by simp [notDriving]

end Sys2Proof.Machine
end

