-- ==== Sys2Proof/Laws/PerInstr.lean ====
section
/-! SUPPORT. A statement made for every instruction, one lemma per constructor: the size of its encoding on the wire. -/

namespace Sys2Proof.Laws

-- Elaborated one after the other: many theorems at once need a thread and its stack each.
set_option Elab.async false

open Machine

/-- The bytes a code holds; a strobe holds none. -/
def codeBytes : Code → Nat
  | .line bytes => bytes.length
  | .crsf bytes => bytes.length
  | .mav bytes => bytes.length
  | .byte _ _ => 1
  | .port _ _ _ => 0

/-- The size of an instruction on the wire: a line is its body and four bytes (30 R101), a CRSF frame its payload and four bytes
(30 R91), a MAVLink frame its payload, header and four bytes (30 R95, R96), a byte step one byte, a port event none. -/
def wireSize : Instr → Nat
  | .txtG rest => rest.length + 5
  | .txtUB val => val.length + 7
  | .txtULX val => val.length + 8
  | .txtULY val => val.length + 8
  | .txtURX val => val.length + 8
  | .txtURY val => val.length + 8
  | .txtULT val => val.length + 8
  | .txtURT val => val.length + 8
  | .txtByte _ => 1
  | .txtLf => 1
  | .crsfSync _ => 1
  | .crsfSkip _ => 1
  | .crsfLen _ => 1
  | .crsfAcc _ => 1
  | .crsfCrc _ => 1
  | .crsfRc payload => payload.length + 4
  | .crsfTelem _ payload => payload.length + 4
  | .crsfUnknown _ payload => payload.length + 4
  | .mavSync1 => 1
  | .mavSync2 => 1
  | .mavSkip _ => 1
  | .mavLen _ => 1
  | .mavHdr _ => 1
  | .mavPay _ => 1
  | .mavCrcLo _ => 1
  | .mavCrcHi _ => 1
  | .mavHeartbeat h payload => payload.length + hlen (headerVer h) + 4
  | .mavManualControl h payload => payload.length + hlen (headerVer h) + 4
  | .mavUnknown h _ payload _ => payload.length + hlen (headerVer h) + 4
  | .mboxPublish _ => 0
  | .mboxTake => 0
  | .inRx _ => 0
  | .inRxErr => 0
  | .outWake => 0
  | .outReady => 0
  | .outDone _ => 0

theorem lineOf_length (body : List Byte) : (lineOf body).length = body.length + 4 := by
  simp [lineOf, hex2]

theorem crsfFrameOf_length (sync type : Byte) (payload : List Byte) :
    (crsfFrameOf sync type payload).length = payload.length + 4 := by
  simp [crsfFrameOf]

theorem headerBytes_length (h : MavHeader) (id : MsgId) : (headerBytes h id).length = hlen (headerVer h) := by
  obtain ⟨flags, seq, sysid, compid⟩ := h
  cases flags <;> rfl

theorem mavFrameOf_length (h : MavHeader) (id : MsgId) (payload : List Byte) (crc : Half) :
    (mavFrameOf h id payload crc).length = payload.length + hlen (headerVer h) + 4 := by
  simp [mavFrameOf, headerBytes_length]
  omega

theorem updateBody_length (k : LineKind) (val : List Byte) :
    (updateBody k val).length = val.length + (fieldCode k).length + 2 := by
  simp [updateBody]
  omega

/-- The encoder writes exactly the bytes the formats of the spec give the instruction. -/
def EncodedSize.Statement (i : Instr) : Prop := ∀ c : Config, codeBytes (encode c i) = wireSize i

namespace EncodedSize

theorem txtG (rest : List Byte) : Statement (.txtG rest) := fun _ => by simp [encode, codeBytes, wireSize, lineOf_length]
theorem txtUB (val : List Byte) : Statement (.txtUB val) := fun _ => by simp [encode, codeBytes, wireSize, lineOf_length, updateBody_length, fieldCode]
theorem txtULX (val : List Byte) : Statement (.txtULX val) := fun _ => by simp [encode, codeBytes, wireSize, lineOf_length, updateBody_length, fieldCode]
theorem txtULY (val : List Byte) : Statement (.txtULY val) := fun _ => by simp [encode, codeBytes, wireSize, lineOf_length, updateBody_length, fieldCode]
theorem txtURX (val : List Byte) : Statement (.txtURX val) := fun _ => by simp [encode, codeBytes, wireSize, lineOf_length, updateBody_length, fieldCode]
theorem txtURY (val : List Byte) : Statement (.txtURY val) := fun _ => by simp [encode, codeBytes, wireSize, lineOf_length, updateBody_length, fieldCode]
theorem txtULT (val : List Byte) : Statement (.txtULT val) := fun _ => by simp [encode, codeBytes, wireSize, lineOf_length, updateBody_length, fieldCode]
theorem txtURT (val : List Byte) : Statement (.txtURT val) := fun _ => by simp [encode, codeBytes, wireSize, lineOf_length, updateBody_length, fieldCode]
theorem txtByte (b : Byte) : Statement (.txtByte b) := fun _ => rfl
theorem txtLf : Statement .txtLf := fun _ => rfl
theorem crsfSync (b : Byte) : Statement (.crsfSync b) := fun _ => rfl
theorem crsfSkip (b : Byte) : Statement (.crsfSkip b) := fun _ => rfl
theorem crsfLen (b : Byte) : Statement (.crsfLen b) := fun _ => rfl
theorem crsfAcc (b : Byte) : Statement (.crsfAcc b) := fun _ => rfl
theorem crsfCrc (b : Byte) : Statement (.crsfCrc b) := fun _ => rfl
theorem crsfRc (payload : List Byte) : Statement (.crsfRc payload) := fun _ => by simp [encode, codeBytes, wireSize, crsfFrameOf_length]
theorem crsfTelem (type : Byte) (payload : List Byte) : Statement (.crsfTelem type payload) := fun _ => by simp [encode, codeBytes, wireSize, crsfFrameOf_length]
theorem crsfUnknown (type : Byte) (payload : List Byte) : Statement (.crsfUnknown type payload) := fun _ => by simp [encode, codeBytes, wireSize, crsfFrameOf_length]
theorem mavSync1 : Statement .mavSync1 := fun _ => rfl
theorem mavSync2 : Statement .mavSync2 := fun _ => rfl
theorem mavSkip (b : Byte) : Statement (.mavSkip b) := fun _ => rfl
theorem mavLen (b : Byte) : Statement (.mavLen b) := fun _ => rfl
theorem mavHdr (b : Byte) : Statement (.mavHdr b) := fun _ => rfl
theorem mavPay (b : Byte) : Statement (.mavPay b) := fun _ => rfl
theorem mavCrcLo (b : Byte) : Statement (.mavCrcLo b) := fun _ => rfl
theorem mavCrcHi (b : Byte) : Statement (.mavCrcHi b) := fun _ => rfl
theorem mavHeartbeat (h : MavHeader) (payload : List Byte) : Statement (.mavHeartbeat h payload) := fun _ => by simp [encode, codeBytes, wireSize, mavFrameOf_length]
theorem mavManualControl (h : MavHeader) (payload : List Byte) : Statement (.mavManualControl h payload) := fun _ => by simp [encode, codeBytes, wireSize, mavFrameOf_length]
theorem mavUnknown (h : MavHeader) (msgid : MsgId) (payload : List Byte) (crc : Half) : Statement (.mavUnknown h msgid payload crc) := fun _ => by simp [encode, codeBytes, wireSize, mavFrameOf_length]
theorem mboxPublish (g : GamepadState) : Statement (.mboxPublish g) := fun _ => rfl
theorem mboxTake : Statement .mboxTake := fun _ => rfl
theorem inRx (b : Byte) : Statement (.inRx b) := fun _ => rfl
theorem inRxErr : Statement .inRxErr := fun _ => rfl
theorem outWake : Statement .outWake := fun _ => rfl
theorem outReady : Statement .outReady := fun _ => rfl
theorem outDone (ok : Bool) : Statement (.outDone ok) := fun _ => rfl

end EncodedSize

end Sys2Proof.Laws
end

