-- ==== Sys2Proof/Laws/Step.lean ====
section
/-! SUPPORT. The outcome of one step, by what stands in the inbox. -/

namespace Sys2Proof.Machine

/-- With an empty inbox a step is the output task's wake step. -/
theorem step_nil {s : State} (h : s.inbox = []) : step s = exec .outWake (accept [] s) := by
  simp [step, h]

/-- With an event in the inbox a step runs that event. -/
theorem step_cons {s : State} {e : Event} {rest : List Event} (h : s.inbox = e :: rest) :
    step s = runEvent e (accept rest s) := by
  simp [step, h]

/-- The wake step: on to the sink when a value waits, else a hold. -/
theorem execOutWake_eq (s : State) :
    exec .outWake s = .next (if wakeEnabled s then s.setOut { s.out with st := .waitReady } else s) := by
  simp only [exec, execOutWake]
  split <;> rfl

end Sys2Proof.Machine
end

