-- ==== Sys2Proof/Tests/Slice0.lean ====
section
/-! SUPPORT. Tests: what WellFormed refuses, words written out from the spec's encodings, single steps with results from spec/ (file 95 and
the examples of the rules), and for every statement with hypotheses a state that meets them. -/

namespace Sys2Proof.Tests

-- Elaborated one after the other: many theorems at once need a thread and its stack each.
set_option Elab.async false

open Sys2Proof Sys2Proof.Machine

/-! Helpers -/

/-- The bytes of a text: ASCII characters (00 R8). -/
def ascii (s : String) : List Byte := s.toList.map fun ch => BitVec.ofNat 8 ch.toNat

/-- The decided parameters with the text parser. -/
abbrev cT : Config := defaultConfig .text
/-- The decided parameters with the CRSF parser. -/
abbrev cC : Config := defaultConfig .crsf
/-- The decided parameters with the MAVLink parser. -/
abbrev cM : Config := defaultConfig .mavlink

/-- A state of the text parser with these bytes collected. -/
def atText (bytes : List Byte) : State :=
  { State.resetWith cT with txt := ⟨Memory.writeRange [] 0 bytes, bytes.length, false, GamepadState.neutral⟩ }

/-- A state of the text parser with a full line buffer. -/
def atFull (ovf : Bool) : State := { State.resetWith cT with txt := ⟨[], 63, ovf, GamepadState.neutral⟩ }

/-- A state of the CRSF parser. -/
def atCrsf (st : CrsfSt) (len : Byte) (bytes : List Byte) : State :=
  { State.resetWith cC with crsf := ⟨st, len, BitVec.ofNat 8 bytes.length, Memory.writeRange [] 0 bytes⟩ }

/-- A state of the MAVLink parser. -/
def atMav (st : MavSt) (ver : MavVer) (len : Byte) (hdr pay : List Byte) (crcLo : Byte) : State :=
  { State.resetWith cM with
    mav := ⟨st, ver, len, hdr.length, pay.length, Memory.writeRange [] 0 hdr, Memory.writeRange [] 0 pay, crcLo⟩ }

/-- A state of the output task, NEUTRAL with buttons 7 in the mailbox. -/
def atOut (st : OutSt) (hasNew : Bool) : State :=
  { State.reset with mbox := ⟨{ GamepadState.neutral with buttons := 7 }, hasNew⟩, out := ⟨st, GamepadState.neutral⟩ }

/-- The state with events in its inbox. -/
def withEvents (es : List Event) (s : State) : State := { s with inbox := es }

/-- The outcome is a next state with a property. -/
def ran (r : Res) (p : State → Bool) : Bool :=
  match r with
  | .next t => p t
  | .fault _ => false
  | .refused _ => false

/-- The state emitted this event. -/
def emitted (e : OutEvent) (t : State) : Bool := t.pulses.evt == some e

/-- The state emitted this event and published this value. -/
def sentOn (e : OutEvent) (g : GamepadState) (t : State) : Bool :=
  t.pulses.evt == some e && t.pulses.publish == some g && t.mbox == ⟨g, true⟩

/-- The decoder gives this instruction. -/
def decodes (c : Config) (code : Code) (i : Instr) : Bool :=
  match decode c code with
  | .ok j => j == i
  | .error _ => false

theorem inv_of {s : State} (cfg : s.cfg.wf := by decide) (txtBuf : s.ArrayInv .txtBuf := by decide)
    (crsfBuf : s.ArrayInv .crsfBuf := by decide) (mavHdr : s.ArrayInv .mavHdr := by decide) (mavPay : s.ArrayInv .mavPay := by decide)
    (txt : s.TxtInv := by decide) (crsf : s.CrsfInv := by decide) (mav : s.MavInv := by decide) (out : s.OutInv := by decide) : s.Inv :=
  ⟨cfg, txtBuf, crsfBuf, mavHdr, mavPay, txt, crsf, mav, out⟩

/-! What WellFormed refuses, one ill-formed term for each check -/

theorem test_wf_refuses_newline_in_line : Instr.wf cT (.txtULX [0x0A]) = false := by decide
theorem test_wf_refuses_line_over_buffer : Instr.wf cT (.txtG (List.replicate 60 0x30)) = false := by decide
theorem test_wf_accepts_line_filling_buffer : Instr.wf cT (.txtG (List.replicate 59 0x30)) = true := by decide
theorem test_wf_refuses_newline_as_byte : Instr.wf cT (.txtByte 0x0A) = false := by decide
theorem test_wf_refuses_false_crsf_sync : Instr.wf cC (.crsfSync 0xEE) = false := by decide
theorem test_wf_refuses_sync_as_skip : Instr.wf cC (.crsfSkip 0xC8) = false := by decide
theorem test_wf_refuses_long_crsf_payload : Instr.wf cC (.crsfRc (List.replicate 61 0)) = false := by decide
theorem test_wf_refuses_payload_over_length_byte :
    Instr.wf { cC with crsfMaxLen := 1000 } (.crsfUnknown 0x7A (List.replicate 254 0)) = false := by decide +kernel
theorem test_wf_refuses_rc_type_as_telemetry :
    Instr.wf { cC with crsfKnownTelem := [0x16] } (.crsfTelem 0x16 []) = false := by decide
theorem test_wf_refuses_unlisted_telemetry : Instr.wf cC (.crsfTelem 0x7A []) = false := by decide
theorem test_wf_refuses_rc_type_as_unknown : Instr.wf cC (.crsfUnknown 0x16 []) = false := by decide
theorem test_wf_refuses_telemetry_as_unknown : Instr.wf cC (.crsfUnknown 0x08 []) = false := by decide
theorem test_wf_refuses_mav_sync_as_skip :
    Instr.wf cM (.mavSkip 0xFE) = false ∧ Instr.wf cM (.mavSkip 0xFD) = false := by decide
theorem test_wf_refuses_long_mav_payload : Instr.wf cM (.mavManualControl ⟨none, 0, 0, 0⟩ (List.replicate 256 0)) = false := by
  decide +kernel
theorem test_wf_refuses_wide_id_in_v1 : Instr.wf cM (.mavUnknown ⟨none, 0, 0, 0⟩ 256 [] 0) = false := by decide
theorem test_wf_refuses_heartbeat_without_extra :
    Instr.wf { cM with mavExtra := [(69, 243)] } (.mavHeartbeat ⟨none, 0, 0, 0⟩ []) = false := by decide
theorem test_wf_refuses_manual_without_extra :
    Instr.wf { cM with mavExtra := [(0, 50)] } (.mavManualControl ⟨none, 0, 0, 0⟩ []) = false := by decide
theorem test_wf_refuses_decoded_id_as_unknown : Instr.wf cM (.mavUnknown ⟨none, 0, 0, 0⟩ 69 [] 0) = false := by decide
theorem test_wf_refuses_wrong_crc_of_known_id :
    Instr.wf { cM with mavExtra := [(30, 1)] } (.mavUnknown ⟨none, 9, 0xFF, 0xBE⟩ 30 [1, 2, 3, 4] 0) = false := by decide +kernel

/-! Words written out from the spec's encodings: every constructor is decoded (95 section 2; 30 R91 to R111) -/

theorem test_decode_text_lines :
    decodes cT (.line (ascii "G8001:-32768:32767:-1:100:0:255*43\n")) (.txtG (ascii "8001:-32768:32767:-1:100:0:255")) ∧
    decodes cT (.line (ascii "UB:00A5*59\n")) (.txtUB (ascii "00A5")) ∧
    decodes cT (.line (ascii "ULX:-123*66\n")) (.txtULX (ascii "-123")) ∧
    decodes cT (.line (ascii "ULY:32767*4d\n")) (.txtULY (ascii "32767")) ∧
    decodes cT (.line (ascii "URX:-32768*70\n")) (.txtURX (ascii "-32768")) ∧
    decodes cT (.line (ascii "URY:0*54\n")) (.txtURY (ascii "0")) ∧
    decodes cT (.line (ascii "ULT:200*45\n")) (.txtULT (ascii "200")) ∧
    decodes cT (.line (ascii "URT:255*5B\n")) (.txtURT (ascii "255")) := by decide +kernel

/-- One line for every reject of checks 1 to 5 (95 section 2.2). -/
theorem test_split_line_rejects :
    splitLine (ascii "G0001:0:0:0:0:0:0*46") = .error .txtMissingNewline ∧
    splitLine (ascii "ULX:1*27\r\n") = .error .txtMissingStar ∧
    splitLine (ascii "G0001:0:0:0:0:0:0*4G\n") = .error .txtBadChecksumField ∧
    splitLine (ascii "G0001:0:0:0:0:0:0*47\n") = .error .txtChecksumMismatch ∧
    splitLine (ascii "*00\n") = .error .txtUnknownTag ∧
    splitLine (ascii "g0001:0:0:0:0:0:0*66\n") = .error .txtUnknownTag ∧
    splitLine (ascii "U:5*5A\n") = .error .txtUnknownFieldCode ∧
    splitLine (ascii "ULX*41\n") = .error .txtMalformedField := by
  refine ⟨?_, ?_, ?_, ?_, ?_, ?_, ?_, ?_⟩ <;> rfl

theorem test_decode_byte_steps :
    decodes cT (.byte .text 0x0D) (.txtByte 0x0D) ∧ decodes cT (.byte .text 0x0A) .txtLf ∧
    decodes cC (.byte (.crsf .awaitSync) 0xC8) (.crsfSync 0xC8) ∧ decodes cC (.byte (.crsf .awaitSync) 0x16) (.crsfSkip 0x16) ∧
    decodes cC (.byte (.crsf .awaitLength) 0xC8) (.crsfLen 0xC8) ∧
    decodes cC (.byte (.crsf .accumulatePayload) 0xC8) (.crsfAcc 0xC8) ∧
    decodes cC (.byte (.crsf .awaitCrc) 0xC8) (.crsfCrc 0xC8) ∧
    decodes cM (.byte (.mav .awaitSync) 0xFE) .mavSync1 ∧ decodes cM (.byte (.mav .awaitSync) 0xFD) .mavSync2 ∧
    decodes cM (.byte (.mav .awaitSync) 0x55) (.mavSkip 0x55) ∧ decodes cM (.byte (.mav .awaitLength) 0xFE) (.mavLen 0xFE) ∧
    decodes cM (.byte (.mav .accumulateHeader) 0xFD) (.mavHdr 0xFD) ∧
    decodes cM (.byte (.mav .accumulatePayload) 0xFE) (.mavPay 0xFE) ∧
    decodes cM (.byte (.mav .awaitCrcLow) 0x94) (.mavCrcLo 0x94) ∧
    decodes cM (.byte (.mav .awaitCrcHigh) 0x99) (.mavCrcHi 0x99) := by decide

/-- The 22 payload bytes of the example of 42 R202. -/
def rcPayload : List Byte :=
  [0xAC, 0x98, 0x38, 0xF8, 0xD0, 0xC7, 0x0A, 0xF0, 0x4D, 0xFC, 0x7B, 0xAC, 0x98, 0x38, 0x00, 0xFE, 0x1F, 0x00, 0x01, 0x0C, 0x00, 0x80]

/-- Its channels (42 R202). -/
def rcChannels : Vector Channel 16 := #v[172, 1811, 992, 1000, 172, 992, 1811, 991, 172, 1811, 0, 2047, 1, 2, 3, 1024]

theorem test_decode_crsf_frames :
    decodes cC (.crsf ([0xC8, 0x18, 0x16] ++ rcPayload ++ [0xD7])) (.crsfRc rcPayload) ∧
    decodes cC (.crsf [0xC8, 0x03, 0x0B, 0xEA, 0xC5]) (.crsfTelem 0x0B [0xEA]) ∧
    decodes cC (.crsf [0xC8, 0x05, 0x7A, 0x01, 0x02, 0x03, 0x02]) (.crsfUnknown 0x7A [1, 2, 3]) := by decide +kernel

theorem test_decode_mav_frames :
    decodes cM (.mav [0xFE, 0x09, 0x07, 0x01, 0x01, 0x00, 0x00, 0x00, 0x00, 0x00, 0x06, 0x08, 0x00, 0x04, 0x03, 0xA8, 0xBF])
      (.mavHeartbeat ⟨none, 7, 1, 1⟩ [0, 0, 0, 0, 6, 8, 0, 4, 3]) ∧
    decodes cM (.mav [0xFD, 0x05, 0x00, 0x00, 0x03, 0xFF, 0xBE, 0x45, 0x00, 0x00, 0x00, 0x00, 0x00, 0x00, 0xFA, 0x1B, 0x8C])
      (.mavManualControl ⟨some (0, 0), 3, 0xFF, 0xBE⟩ [0, 0, 0, 0, 0xFA]) ∧
    decodes cM (.mav [0xFD, 0x01, 0x00, 0x00, 0x09, 0xFF, 0xBE, 0x45, 0x23, 0x01, 0x09, 0xDD, 0x85])
      (.mavUnknown ⟨some (0, 0), 9, 0xFF, 0xBE⟩ 0x012345 [9] 0x85DD) ∧
    decodes { cM with mavCrcCoversLen := true }
      (.mav [0xFE, 0x09, 0x07, 0x01, 0x01, 0x00, 0x00, 0x00, 0x00, 0x00, 0x06, 0x08, 0x00, 0x04, 0x03, 0x17, 0x33])
      (.mavHeartbeat ⟨none, 7, 1, 1⟩ [0, 0, 0, 0, 6, 8, 0, 4, 3]) := by decide +kernel

theorem test_decode_strobes :
    decodes cT (.port .mbox 0b10 0x0201000500040003000280FF) (.mboxPublish ⟨0x80FF, 2, 3, 4, 5, 1, 2⟩) ∧
    decodes cT (.port .mbox 0b01 0) .mboxTake ∧ decodes cT (.port .rx 1 0x47) (.inRx 0x47) ∧ decodes cT (.port .rxErr 1 0) .inRxErr ∧
    decodes cT (.port .hasNew 1 0) .outWake ∧ decodes cT (.port .snkReady 1 0) .outReady ∧
    decodes cT (.port .snkDone 1 1) (.outDone true) ∧ decodes cT (.port .snkDone 1 0) (.outDone false) := by decide +kernel

/-- The checksums (40 R131, 41 R177, 43 R239). -/
theorem test_checksums : xor8 (ascii "ULX:-123") = 0x66 ∧ crc8 (ascii "123456789") = 0xBC ∧ crc16 (ascii "123456789") = 0x6F91 := by
  decide +kernel

/-! One step of each row -/

/-- 95 section 2.2. -/
theorem test_full_state : ran (exec (.txtG (ascii "8001:-32768:32767:-1:100:0:255")) State.reset)
    (fun t => t.txt.held == ⟨0x8001, -32768, 32767, -1, 100, 0, 255⟩ && t.mbox == ⟨t.txt.held, true⟩) := by decide +kernel
theorem test_full_state_range : ran (exec (.txtG (ascii "0001:0:0:0:0:-1:0")) State.reset) (emitted (.reject .txtOutOfRange)) := by
  decide +kernel
theorem test_buttons_lower_case : ran (exec (.txtUB (ascii "00a5")) State.reset) (fun t => t.txt.held.buttons == 0x00A5) := by
  decide +kernel
theorem test_buttons_two_digits : ran (exec (.txtUB (ascii "12")) State.reset) (emitted (.reject .txtMalformedField)) := by
  decide +kernel
theorem test_left_x : ran (exec (.txtULX (ascii "-123")) State.reset) (fun t => t.txt.held.lx == -123 && t.txt.held.ly == 0) := by
  decide +kernel
theorem test_left_x_range : ran (exec (.txtULX (ascii "99999")) State.reset) (emitted (.reject .txtOutOfRange)) := by decide +kernel
theorem test_left_y : ran (exec (.txtULY (ascii "32767")) State.reset) (emitted (.update (.leftStickY 32767))) := by decide +kernel
theorem test_right_x : ran (exec (.txtURX (ascii "-32768")) State.reset) (fun t => t.mbox.cell.rx == 0x8000) := by decide +kernel
theorem test_right_y : ran (exec (.txtURY (ascii "007")) State.reset) (fun t => t.txt.held.ry == 7) := by decide +kernel
theorem test_left_trigger : ran (exec (.txtULT (ascii "200")) State.reset) (fun t => t.txt.held.lt == 200 && t.txt.held.rt == 0) := by
  decide +kernel
theorem test_right_trigger_range : ran (exec (.txtURT (ascii "256")) State.reset) (emitted (.reject .txtOutOfRange)) := by
  decide +kernel
theorem test_right_trigger : ran (exec (.txtURT (ascii "255")) State.reset) (fun t => t.txt.held.rt == 255 && t.txt.held.lt == 0) := by
  decide +kernel
/-- 40 R150: the 63rd byte is kept, the 64th sets txt.ovf. -/
theorem test_byte_kept : ran (exec (.txtByte 0x41) (atText (List.replicate 62 0x41)))
    (fun t => t.txt.idx == 63 && t.txt.buf.read 62 == 0x41 && !t.txt.ovf) := by decide +kernel
theorem test_byte_dropped : ran (exec (.txtByte 0x41) (atFull false)) (fun t => t.txt.idx == 63 && t.txt.ovf) := by decide
theorem test_newline : ran (exec .txtLf (atText (ascii "UB:00A5*59"))) (fun t => t.txt.held.buttons == 0x00A5 && t.txt.idx == 0) := by
  decide +kernel
theorem test_newline_long : ran (exec .txtLf (atFull true))
    (fun t => emitted (.reject .txtLineTooLong) t && t.txt.idx == 0 && !t.txt.ovf) := by decide
/-- 95 section 2.3. -/
theorem test_crsf_sync : ran (exec (.crsfSync 0xC8) (State.resetWith cC)) (fun t => t.crsf.st == .awaitLength) := by decide
theorem test_crsf_skip : ran (exec (.crsfSkip 0xFF) (State.resetWith cC)) (fun t => t == State.resetWith cC) := by decide
theorem test_crsf_longest : ran (exec (.crsfLen 0x3E) (atCrsf .awaitLength 0 []))
    (fun t => t.crsf.st == .accumulatePayload && t.crsf.len == 62 && t.pulses.evt.isNone) := by decide
theorem test_crsf_over_length : ran (exec (.crsfLen 0x3F) (atCrsf .awaitLength 0 [])) (emitted (.reject .crsfOverLength)) := by decide
theorem test_crsf_type_alone : ran (exec (.crsfAcc 0xC8) (atCrsf .accumulatePayload 2 []))
    (fun t => t.crsf.st == .awaitCrc && t.crsf.idx == 1 && t.crsf.buf.read 0 == 0xC8) := by decide
theorem test_crsf_accumulate : ran (exec (.crsfAcc 0x16) (atCrsf .accumulatePayload 24 [])) (fun t => t.crsf.st == .accumulatePayload) := by
  decide
theorem test_crsf_crc : ran (exec (.crsfCrc 0xC5) (atCrsf .awaitCrc 3 [0x0B, 0xEA])) (emitted (.telemetry 0x0B [0xEA])) := by
  decide +kernel
theorem test_crsf_crc_wrong : ran (exec (.crsfCrc 0xC4) (atCrsf .awaitCrc 3 [0x0B, 0xEA]))
    (fun t => emitted (.reject .crsfCrcMismatch) t && t.crsf.st == .awaitSync && t.crsf.len == 0) := by decide +kernel
/-- 42 R202, R210. -/
theorem test_rc : ran (exec (.crsfRc rcPayload) (State.resetWith cC))
    (sentOn (.rcChannels rcChannels) ⟨0x0006, 339, 19, -32768, 32767, 0, 255⟩) := by decide +kernel
theorem test_rc_short : ran (exec (.crsfRc (List.replicate 21 0)) (State.resetWith cC)) (emitted (.reject .crsfBadPayloadLength)) := by
  decide
theorem test_telemetry : ran (exec (.crsfTelem 0x08 [1]) (State.resetWith cC))
    (fun t => emitted (.telemetry 0x08 [1]) t && t.pulses.publish.isNone) := by decide
theorem test_unknown_type : ran (exec (.crsfUnknown 0x29 []) (State.resetWith cC)) (emitted (.ignoredType 0x29)) := by decide
/-- 95 section 2.6. -/
theorem test_mav_sync1 : ran (exec .mavSync1 (atMav .awaitSync .v2 0 [] [] 0))
    (fun t => t.mav.ver == .v1 && t.mav.st == .awaitLength) := by decide
theorem test_mav_sync2 : ran (exec .mavSync2 (State.resetWith cM)) (fun t => t.mav.ver == .v2 && t.mav.st == .awaitLength) := by decide
theorem test_mav_skip : ran (exec (.mavSkip 0x55) (State.resetWith cM)) (fun t => t == State.resetWith cM) := by decide
theorem test_mav_length : ran (exec (.mavLen 0xFF) (atMav .awaitLength .v1 0 [] [] 0))
    (fun t => t.mav.len == 255 && t.mav.st == .accumulateHeader) := by decide
theorem test_mav_header_v1 : ran (exec (.mavHdr 0x45) (atMav .accumulateHeader .v1 0 [1, 0xFF, 0xBE] [] 0))
    (fun t => t.mav.st == .awaitCrcLow && t.mav.hidx == 4 && t.mav.hdr.read 3 == 0x45) := by decide
theorem test_mav_header_v2 : ran (exec (.mavHdr 0x00) (atMav .accumulateHeader .v2 5 [0, 0, 1, 0xFF, 0xBE, 0x45, 0] [] 0))
    (fun t => t.mav.st == .accumulatePayload && t.mav.hidx == 8) := by decide
theorem test_mav_payload : ran (exec (.mavPay 0xFA) (atMav .accumulatePayload .v1 5 [3, 0xFF, 0xBE, 0x45] [0, 0, 0, 0] 0))
    (fun t => t.mav.st == .awaitCrcLow && t.mav.pay.read 4 == 0xFA) := by decide
theorem test_mav_crc_low : ran (exec (.mavCrcLo 0x94) (atMav .awaitCrcLow .v1 0 [3, 0xFF, 0xBE, 0x45] [] 0))
    (fun t => t.mav.st == .awaitCrcHigh && t.mav.crcLo == 0x94) := by decide
/-- The empty v2 MANUAL_CONTROL frame, its last byte right and wrong. -/
theorem test_mav_crc_high : ran (exec (.mavCrcHi 0x99) (atMav .awaitCrcHigh .v2 0 [0, 0, 3, 0xFF, 0xBE, 0x45, 0, 0] [] 0x94))
    (fun t => sentOn (.manualControl ⟨0, 0, 0, 0, 0, 0, 0⟩) ⟨0, 0, 0, 0, 0, 255, 0⟩ t && t.mav.crcLo == 0x94 && t.mav.ver == .v2) := by
  decide +kernel
theorem test_mav_crc_high_wrong : ran (exec (.mavCrcHi 0x98) (atMav .awaitCrcHigh .v2 0 [0, 0, 3, 0xFF, 0xBE, 0x45, 0, 0] [] 0x94))
    (fun t => emitted (.reject .mavCrcMismatch) t && t.mav.st == .awaitSync) := by decide +kernel
theorem test_heartbeat : ran (exec (.mavHeartbeat ⟨none, 7, 1, 2⟩ [9]) (State.resetWith cM))
    (fun t => emitted (.heartbeat 1 2) t && t.pulses.linkPresent && t.pulses.publish.isNone) := by decide
/-- The 13-byte payload of 95 section 2.6. -/
theorem test_manual_control :
    ran (exec (.mavManualControl ⟨none, 2, 0xFF, 0xBE⟩ [0xE0, 0xFC, 0xC8, 0, 0xEE, 2, 0xFF, 0xFF, 0xFF, 0, 1, 0xEF, 0xBE]) (State.resetWith cM))
      (sentOn (.manualControl ⟨-800, 200, 750, -1, 0x00FF, 0xBEEF, 1⟩) ⟨0x00FF, -26214, 6553, -33, 0, 0, 128⟩) := by decide +kernel
theorem test_unknown_message : ran (exec (.mavUnknown ⟨none, 9, 0xFF, 0xBE⟩ 30 [1] 0) (State.resetWith cM)) (emitted (.ignoredMsg 30)) := by
  decide
/-- 95 section 2.7. -/
theorem test_publish : ran (exec (.mboxPublish ⟨1, 0, 0, 0, 0, 0, 0⟩) (atOut .sending true))
    (fun t => t.mbox == ⟨⟨1, 0, 0, 0, 0, 0, 0⟩, true⟩ && t.out.cur == GamepadState.neutral) := by decide
theorem test_take : ran (exec .mboxTake (atOut .waitReady true))
    (fun t => t.pulses.take == some ⟨7, 0, 0, 0, 0, 0, 0⟩ && t.mbox == ⟨⟨7, 0, 0, 0, 0, 0, 0⟩, false⟩) := by decide
theorem test_receive : ran (exec (.inRx 0xC8) (State.resetWith cC)) (fun t => t.crsf.st == .awaitLength) := by decide
theorem test_receive_error : ran (exec .inRxErr (atCrsf .awaitCrc 3 [0x0B, 0xEA]))
    (fun t => t.pulses.faultIn && !t.pulses.faultOut && t.crsf == (atCrsf .awaitCrc 3 [0x0B, 0xEA]).crsf) := by decide
theorem test_wake : ran (exec .outWake (atOut .waitValue true)) (fun t => t.out.st == .waitReady && t.mbox.hasNew) := by decide
theorem test_wake_holds : ran (exec .outWake (atOut .waitValue false)) (fun t => t == atOut .waitValue false) := by decide
theorem test_ready : ran (exec .outReady (atOut .waitReady true))
    (fun t => t.out == ⟨.sending, ⟨7, 0, 0, 0, 0, 0, 0⟩⟩ && !t.mbox.hasNew) := by decide
theorem test_ready_stray : ran (exec .outReady (atOut .sending true)) (fun t => t == atOut .sending true) := by decide
theorem test_done : ran (exec (.outDone true) (atOut .sending false)) (fun t => t.out.st == .waitValue && !t.pulses.faultOut) := by decide
theorem test_done_failed : ran (exec (.outDone false) (atOut .sending true))
    (fun t => t.out.st == .waitValue && t.pulses.faultOut && t.mbox.hasNew) := by decide
/-- A Publish and a Take in one clock cycle (45 R304). -/
theorem test_cycle_take_then_publish :
    ran (step (withEvents [.cycle ⟨false, true, 0x0A, false, true, false, false⟩]
        { atOut .waitReady true with txt := (atText (ascii "UB:0001*2C")).txt }))
      (fun t => t.out.cur.buttons == 7 && t.mbox == ⟨⟨1, 0, 0, 0, 0, 0, 0⟩, true⟩) := by decide +kernel
/-- A table word runs as the first instruction after reset. -/
theorem test_fetch_word : ran (step (State.reset.withFetchWord 24 69)) (fun t => t.mbox == ⟨⟨0, 0, 0, 0, 0, 255, 0⟩, true⟩) := by
  decide +kernel

/-! For every statement with hypotheses a state that meets them, at the ends of its ranges -/

theorem inv_reset_text : (State.resetWith cT).Inv := inv_of
theorem inv_reset_crsf : (State.resetWith cC).Inv := inv_of
theorem inv_reset_mav : (State.resetWith cM).Inv := inv_of
/-- The invariant holds in the middle of a frame and with a full line buffer. -/
theorem inv_busy : (atFull true).Inv ∧ (atCrsf .awaitCrc 3 [0x0B, 0xEA]).Inv ∧
    (atMav .awaitCrcHigh .v2 0 [0, 0, 3, 0xFF, 0xBE, 0x45, 0, 0] [] 0x94).Inv ∧ (atOut .waitReady true).Inv :=
  ⟨inv_of, inv_of, inv_of, inv_of⟩

theorem witness_DecodeEncodeRoundTrip : cT.wf ∧ Instr.wf cT (.txtG (List.replicate 59 0x30)) = true := by decide
theorem witness_StepRunsTheDecodedInstruction :
    (withEvents [.rxByte 0xFF] State.reset).inbox = .rxByte 0xFF :: [] ∧ eventCode (.rxByte 0xFF) = some (rxCode 0xFF) ∧
    decode State.reset.cfg (rxCode 0xFF) = .ok (.inRx 0xFF) ∧ (Instr.inRx 0xFF).wf State.reset.cfg = true := ⟨rfl, rfl, rfl, rfl⟩
theorem witness_IdleStepWakesOrHolds : (atOut .waitValue true).inbox = [] ∧ State.reset.inbox = [] := by decide
theorem witness_EveryStepKeepsTheInvariant : (withEvents [.ready, .rxByte 0] (atOut .waitReady true)).Inv := inv_of
theorem witness_ReceivedByteCompletes : (atFull true).Inv := inv_busy.1
theorem witness_ParametersNeverChange : step State.reset = .next State.reset := by rfl
theorem witness_AbsentParsersTakeNoStep :
    parserOf .txtLf = some .text ∧ cC.protocol ≠ .text ∧ parserOf (.crsfLen 1) = some .crsf ∧ cM.protocol ≠ .crsf ∧
    parserOf (.mavLen 1) = some .mavlink ∧ cT.protocol ≠ .mavlink := by decide
theorem witness_ResetYieldsTheResetValues :
    (withEvents [.reset, .ready] (atOut .sending true)).inbox = .reset :: [.ready] ∧
    (withEvents [.cycle ⟨true, true, 0x0A, true, true, true, true⟩] (atFull true)).inbox =
      .cycle ⟨true, true, 0x0A, true, true, true, true⟩ :: [] := by decide
theorem witness_ResetStateHasTheInvariant : { cC with crsfMaxLen := 2, textLineMax := 45 }.wf ∧ { cC with crsfMaxLen := 255 }.wf := by
  decide
theorem witness_RejectTouchesOnlyItsParser :
    (atFull true).pulses.evt = none ∧ ran (exec .txtLf (atFull true)) (emitted (.reject .txtLineTooLong)) ∧
    (atCrsf .awaitLength 0 []).pulses.evt = none ∧ ran (exec (.crsfLen 1) (atCrsf .awaitLength 0 [])) (emitted (.reject .crsfUnderLength)) ∧
    (State.resetWith cC).pulses.evt = none ∧ ran (exec (.crsfRc []) (State.resetWith cC)) (emitted (.reject .crsfBadPayloadLength)) := by
  decide
theorem witness_RejectTouchesOnlyItsParser_mav :
    let s := atMav .awaitCrcHigh .v2 0 [0, 0, 3, 0xFF, 0xBE, 0x45, 0, 0] [] 0x94
    s.pulses.evt = none ∧ ran (exec (.mavCrcHi 0) s) (emitted (.reject .mavCrcMismatch)) := by decide +kernel
theorem witness_TextByteIsStoredOrOverflows :
    let s : State := { State.resetWith cT with txt := ⟨[(61, 0x41)], 62, false, GamepadState.neutral⟩ }
    s.cfg.protocol = .text ∧ (0x0D : Byte) ≠ 0x0A ∧ s.txt.buf.wf ∧ s.txt.ovf = false ∧ s.txt.idx < s.cfg.textLineMax - 1 ∧
    (atFull false).cfg.protocol = .text ∧ (atFull false).txt.buf.wf ∧ cT.textLineMax - 1 ≤ (atFull false).txt.idx ∧
    (atFull true).TxtInv ∧ (atFull true).txt.ovf = true := by decide
theorem witness_NewlineParsesTheLine :
    (atFull true).cfg.protocol = .text ∧ (atFull true).txt.idx ≤ cT.textLineMax - 1 ∧ (atFull true).txt.ovf = true ∧
    (atText []).cfg.protocol = .text ∧ (atText []).txt.idx = 0 ∧ (atText []).txt.ovf = false ∧ parse ((atText []).txt.buf.readRange 0 0 ++ [0x0A]) = .error .txtMissingStar ∧
    parse ((atText (ascii "G0000:0:0:0:0:0:0*47")).txt.buf.readRange 0 20 ++ [0x0A]) = .ok (.full GamepadState.neutral) ∧
    parse ((atText (ascii "URY:0*54")).txt.buf.readRange 0 8 ++ [0x0A]) = .ok (.update (.rightStickY 0)) :=
  ⟨rfl, by decide, rfl, rfl, rfl, rfl, rfl, rfl, rfl⟩
theorem witness_FullStateRowSetsEveryField :
    State.reset.cfg.protocol = .text ∧ splitFields (ascii "FFFF:-32768:32767:-32768:32767:0:255") =
      [ascii "FFFF", ascii "-32768", ascii "32767", ascii "-32768", ascii "32767", ascii "0", ascii "255"] ∧
    parseHex4 (ascii "FFFF") = some 65535 ∧ parseDec (ascii "-32768") = some (-32768) ∧ parseDec (ascii "32767") = some 32767 ∧
    parseDec (ascii "0") = some 0 ∧ parseDec (ascii "255") = some 255 ∧
    (∀ v ∈ [(-32768 : Int), 32767, -32768, 32767], -32768 ≤ v ∧ v ≤ 32767) ∧ ∀ v ∈ [(0 : Int), 255], 0 ≤ v ∧ v ≤ 255 := by
  decide +kernel
theorem witness_FullStateRowRejects :
    State.reset.cfg.protocol = .text ∧ (splitFields (ascii "0001:0:0:0:0:0")).length ≠ 7 ∧
    splitFields (ascii "001::0:0:0:0:0") = [ascii "001", [], ascii "0", ascii "0", ascii "0", ascii "0", ascii "0"] ∧
    parseHex4 (ascii "001") = none ∧ parseDec [] = none ∧ parseDec (ascii "-") = none ∧
    splitFields (ascii "0001:32768:0:0:0:256:-1") =
      [ascii "0001", ascii "32768", ascii "0", ascii "0", ascii "0", ascii "256", ascii "-1"] ∧
    parseHex4 (ascii "0001") = some 1 ∧ parseDec (ascii "32768") = some 32768 ∧ parseDec (ascii "0") = some 0 ∧
    parseDec (ascii "256") = some 256 ∧ parseDec (ascii "-1") = some (-1) := by decide +kernel
theorem witness_StickUpdateRowsMerge :
    State.reset.cfg.protocol = .text ∧ parseDec (ascii "-32768") = some (0x8000 : Half).toInt ∧ parseDec (ascii "32767") = some (0x7FFF : Half).toInt := by decide +kernel
theorem witness_TriggerAndButtonUpdateRowsMerge :
    State.reset.cfg.protocol = .text ∧ parseDec (ascii "0") = some ((0x00 : Byte).toNat : Int) ∧ parseDec (ascii "255") = some ((0xFF : Byte).toNat : Int) ∧
    parseHex4 (ascii "FFff") = some (0xFFFF : Half).toNat := by decide +kernel
/-- One line for each check, which passes all checks before it (95 section 2.2); then the operands. -/
theorem witness_LinesAndUpdatesReject_lines :
    byteAt (ascii "A") 0 ≠ 0x0A ∧
    byteAt (ascii "A\n") 1 = 0x0A ∧ (ascii "A\n").length < 4 ∧
    byteAt (ascii "G-47\n") 4 = 0x0A ∧ byteAt (ascii "G-47\n") 1 ≠ 0x2A ∧
    byteAt (ascii "*4G\n") 0 = 0x2A ∧ hexVal (byteAt (ascii "*4G\n") 1) = some 4 ∧ hexVal (byteAt (ascii "*4G\n") 2) = none ∧
    hexVal (byteAt (ascii "*01\n") 1) = some 0 ∧ hexVal (byteAt (ascii "*01\n") 2) = some 1 ∧ (xor8 []).toNat ≠ 16 * 0 + 1 ∧
    (xor8 []).toNat = 16 * 0 + 0 ∧ (ascii "").head? ≠ some 0x47 ∧ (ascii "").head? ≠ some 0x55 ∧
    (xor8 (ascii "g")).toNat = 16 * 6 + 7 ∧ (ascii "g").head? ≠ some 0x47 ∧ (ascii "g").head? ≠ some 0x55 ∧
    (xor8 (ascii "ULX")).toNat = 16 * 4 + 1 ∧ 0x3A ∉ ascii "LX" ∧
    (xor8 (ascii "U:5")).toNat = 16 * 5 + 10 ∧ ascii "U:5" = 0x55 :: ([] ++ 0x3A :: ascii "5") ∧
    [] ∉ [ascii "B", ascii "LX", ascii "LY", ascii "RX", ascii "RY", ascii "LT", ascii "RT"] := by decide +kernel
theorem witness_LinesAndUpdatesReject_updates :
    State.reset.cfg.protocol = .text ∧ parseHex4 (ascii "12") = none ∧ parseDec (ascii "+1") = none ∧ parseDec (ascii "-32769") = some (-32769) ∧
    parseDec (ascii "32768") = some 32768 ∧ parseDec (ascii "-1") = some (-1) ∧ parseDec (ascii "256") = some 256 := by decide +kernel
theorem witness_ChangedByteNeverGivesAnotherValue :
    parse (ascii "ULY:32767*4D\n") = .ok (.update (.leftStickY 32767)) ∧ (0x58 : Byte) ≠ byteAt (ascii "ULY:32767*4D\n") 0 ∧
    8 + 4 < (ascii "ULY:32767*4D\n").length ∧ parse ((ascii "ULY:32767*4D\n").set 11 0x64) = .ok (.update (.leftStickY 32767)) :=
  ⟨rfl, by decide, by decide, rfl⟩
theorem witness_SerializersNeverTruncate :
    20 < (fullLine GamepadState.neutral).length ∧ (fullLine GamepadState.neutral).length ≤ 21 ∧
    13 < (updateLine (.leftStickX 0x8000)).length ∧ (updateLine (.leftStickX 0x8000)).length ≤ 14 := by decide +kernel
theorem witness_TextLineOnTheWirePublishes :
    (withEvents (byteEvents (fullLine GamepadState.neutral) ++ [.ready]) (State.resetWith cT)).Inv ∧
    (State.resetWith cT).cfg.protocol = .text ∧ (State.resetWith cT).txt.idx = 0 ∧ (State.resetWith cT).txt.ovf = false :=
  ⟨inv_of, rfl, rfl, rfl⟩
theorem witness_CrsfScanRows : (State.resetWith cC).cfg.protocol = .crsf ∧ (State.resetWith cC).crsf.st = .awaitSync ∧ 0xC8 ∈ cC.crsfSync ∧ 0xC7 ∉ cC.crsfSync := by decide
theorem witness_CrsfLengthRow :
    (atCrsf .awaitLength 0 []).cfg.protocol = .crsf ∧ (atCrsf .awaitLength 0 []).crsf.st = .awaitLength ∧ 2 ≤ cC.crsfMaxLen ∧ 2 ≤ (0x02 : Byte).toNat ∧ (0x3E : Byte).toNat ≤ cC.crsfMaxLen ∧
    cC.crsfMaxLen < (0x3F : Byte).toNat ∧ (0x01 : Byte).toNat < 2 := by decide
theorem witness_CrsfAccumulateRow :
    let s : State := { State.resetWith cC with crsf := ⟨.accumulatePayload, 62, 60, [(59, 0xAA)]⟩ }
    s.cfg.protocol = .crsf ∧ s.crsf.st = .accumulatePayload ∧ s.crsf.buf.wf ∧ s.crsf.idx.toNat < s.cfg.crsfMaxLen := by decide +kernel
theorem witness_CrsfCrcRow :
    let s := atCrsf .awaitCrc 2 [0x0B]
    s.cfg.protocol = .crsf ∧ s.crsf.st = .awaitCrc ∧ s.crsf.buf.wf ∧ 2 ≤ s.crsf.len.toNat ∧ s.crsf.len.toNat ≤ s.cfg.crsfMaxLen ∧ s.crsf.idx.toNat + 1 = s.crsf.len.toNat ∧
    0x83 = crc8 (s.crsf.buf.readRange 0 (s.crsf.len.toNat - 1)) ∧ 0x82 ≠ crc8 (s.crsf.buf.readRange 0 (s.crsf.len.toNat - 1)) := by
  decide +kernel
theorem witness_RcChannelsRow : (State.resetWith cC).cfg.protocol = .crsf ∧ rcPayload.length = 22 ∧ (List.replicate 21 (0 : Byte)).length ≠ 22 := by decide
theorem witness_CrsfOtherFrameRows : (State.resetWith cC).cfg.protocol = .crsf ∧ (0x14 : Byte) ≠ cC.crsfTypeRc ∧
    0x14 ∈ cC.crsfKnownTelem ∧ (0x15 : Byte) ≠ cC.crsfTypeRc ∧ 0x15 ∉ cC.crsfKnownTelem := by decide
theorem witness_CrsfFramerNeverWedges :
    (withEvents (byteEvents [0xC8, 0xC8]) (atCrsf .accumulatePayload 2 [])).Inv ∧
    (withEvents (byteEvents [0xC8]) (atCrsf .awaitCrc 3 [0x0B, 0xEA])).Inv ∧
    (atCrsf .accumulatePayload 2 []).cfg.protocol = .crsf ∧ (atCrsf .accumulatePayload 2 []).crsf.st = .accumulatePayload ∧
    (atCrsf .awaitCrc 3 [0x0B, 0xEA]).crsf.st = .awaitCrc ∧ (atCrsf .awaitCrc 3 [0x0B, 0xEA]).crsf.idx.toNat + 1 = 3 ∧
    (atCrsf .accumulatePayload 2 []).crsf.idx.toNat + 2 = (atCrsf .accumulatePayload 2 []).crsf.len.toNat :=
  ⟨inv_of, inv_of, rfl, rfl, rfl, by decide, by decide⟩
theorem witness_CrsfFrameOnTheWirePublishes :
    (withEvents (byteEvents (crsfFrameOf 0xC8 0x16 rcPayload)) (State.resetWith { cC with crsfMaxLen := 24 })).Inv ∧
    cC.protocol = .crsf ∧ (State.resetWith cC).crsf.st = .awaitSync ∧ rcPayload.length = 22 ∧ 0xC8 ∈ cC.crsfSync :=
  ⟨inv_of, rfl, rfl, by decide, by decide⟩
theorem witness_ChannelsByteByByte : rcPayload.length = 22 ∧ 1 < 2 := by decide
/-- Values at, inside and beyond both ends, in order. -/
theorem witness_ChannelScaleEndsAndOrder : (172 : Int) ≤ 172 ∧ (172 : Int) ≤ 1811 ∧ (173 : Int) ≤ 1811 ∧ (0 : Int) ≤ 172 ∧ (1811 : Int) ≤ 2047 := by
  decide
/-- An entry of every field present and absent, a channel at the threshold and one below it. -/
theorem witness_ChannelsFollowTheirMappingEntries :
    let none6 : ChannelMapping := ⟨none, none, none, none, none, none, defaultChannelMap.buttons⟩
    let some6 : ChannelMapping := ⟨some ⟨0, true⟩, some ⟨1, false⟩, some ⟨2, true⟩, some ⟨3, false⟩, some ⟨14, true⟩, some ⟨15, false⟩, none6.buttons⟩
    none6.lx = none ∧ none6.ly = none ∧ none6.rx = none ∧ none6.ry = none ∧ none6.lt = none ∧ none6.rt = none ∧
    some6.lx = some ⟨0, true⟩ ∧ some6.ly = some ⟨1, false⟩ ∧ some6.rx = some ⟨2, true⟩ ∧ some6.ry = some ⟨3, false⟩ ∧
    some6.lt = some ⟨14, true⟩ ∧ some6.rt = some ⟨15, false⟩ ∧
    none6.buttons[(4 : Fin 16)] = none ∧ none6.buttons[(3 : Fin 16)] = some 7 ∧
    992 ≤ (992 : Channel).toNat ∧ ¬ 992 ≤ (991 : Channel).toNat := by decide
/-- Inverted: channel 0 at its lowest value puts left-x at its highest; a trigger from the last channel (42 R207, R208). -/
theorem test_inverted_stick_and_trigger :
    let m : ChannelMapping := ⟨some ⟨0, true⟩, none, none, none, none, some ⟨15, false⟩, defaultChannelMap.buttons⟩
    let g := channelsToGamepad (Vector.ofFn fun i => if i = 0 then 172 else 1811) m
    g.lx.toInt = 32767 ∧ g.ly = 0 ∧ g.lt = 0 ∧ g.rt = 255 := by decide +kernel
/-- A payload function as 42 R212 asks for: one heartbeat frame for any field. -/
def heartbeatPayload : TelemetryPayload where
  frames d := if d.allAbsent then [] else [(0x0B, [])]
  empty_iff := by intro d; by_cases h : d.allAbsent = true <;> simp [h]
  payload_le := by intro d f hf; cases h : d.allAbsent <;> simp_all
/-- The telemetry record holds a signed power and the ends of a percentage (10 R23). -/
theorem test_telemetry_record :
    let d : TelemetryData := ⟨none, some 0, none, some (-70), some 100⟩
    d.rssiDbm.map Int8.toInt = some (-70) ∧ d.batteryPct.map Fin.val = some 0 ∧ d.linkQuality.map Fin.val = some 100 := by decide
/-- 95 section 2.8. -/
theorem witness_TelemetryFramesAreAccepted :
    let d : TelemetryData := ⟨none, some 50, none, none, none⟩
    d.allAbsent = false ∧ encodeTelemetry heartbeatPayload d 4 = .written [0xC8, 0x02, 0x0B, 0x83] ∧
    encodeTelemetry heartbeatPayload d 3 = .bufferTooSmall ∧ 0xC8 ∈ cC.crsfSync ∧ 62 ≤ cC.crsfMaxLen := by decide +kernel
theorem witness_MavScanRows : (State.resetWith cM).cfg.protocol = .mavlink ∧ (State.resetWith cM).mav.st = .awaitSync ∧ (0xFF : Byte) ≠ 0xFE ∧
    (0xFF : Byte) ≠ 0xFD := by decide
theorem witness_MavLengthAndHeaderRows :
    (atMav .awaitLength .v1 0 [] [] 0).cfg.protocol = .mavlink ∧ (atMav .awaitLength .v1 0 [] [] 0).mav.st = .awaitLength ∧
    let s := atMav .accumulateHeader .v2 0 [1, 2, 3, 4, 5, 6, 7] [] 0
    s.cfg.protocol = .mavlink ∧ s.mav.st = .accumulateHeader ∧ s.mav.hdr.wf ∧ s.mav.hidx < 8 ∧ s.mav.hidx + 1 = 8 := by decide
theorem witness_MavPayloadAndCrcLowRows :
    let s : State := { State.resetWith cM with mav := ⟨.accumulatePayload, .v1, 255, 4, 254, [], [(253, 9)], 0⟩ }
    s.cfg.protocol = .mavlink ∧ s.mav.st = .accumulatePayload ∧ s.mav.pay.wf ∧ s.mav.pidx < s.cfg.mavMaxPayload ∧ s.mav.pidx + 1 = s.mav.len.toNat ∧
    (atMav .awaitCrcLow .v1 0 [1, 2, 3, 4] [] 0).mav.st = .awaitCrcLow := by decide +kernel
/-- An unknown id, a known id with a wrong and with the right CRC, a heartbeat, and a third id with a CRC-extra byte (44 R270). -/
theorem witness_MavLastByteRow :
    (atMav .awaitCrcHigh .v2 0 [0, 0, 3, 0xFF, 0xBE, 0x45, 0, 0] [] 0x94).cfg.protocol = .mavlink ∧
    (atMav .awaitCrcHigh .v2 0 [0, 0, 3, 0xFF, 0xBE, 0x45, 0, 0] [] 0x94).mav.st = .awaitCrcHigh ∧
    cM.extra 30 = none ∧ cM.extra 69 = some 243 ∧ cM.extra 0 = some 50 ∧
    frameCrc false 0 [0, 0, 3, 0xFF, 0xBE, 0x45, 0, 0] [] 243 = (0x99 : Byte) ++ (0x94 : Byte) ∧
    (0x98 : Byte) ++ (0x94 : Byte) ≠ frameCrc false 0 [0, 0, 3, 0xFF, 0xBE, 0x45, 0, 0] [] 243 ∧
    frameCrc false 9 [7, 1, 1, 0] [0, 0, 0, 0, 6, 8, 0, 4, 3] 50 = (0xBF : Byte) ++ (0xA8 : Byte) ∧
    { cM with mavExtra := [(30, 39)] }.extra 30 = some 39 ∧ (255 : Byte).toNat ≤ cM.mavMaxPayload := by decide +kernel
theorem witness_MavMessageRows : (State.resetWith cM).cfg.protocol = .mavlink := by decide
/-- One z for every clause, at the ends of its range. -/
theorem witness_TriggerSplitOfZ :
    let f (z : Half) : ManualFields := ⟨0, 0, z, 0, 0, 0, 0⟩
    (f 0x8000).z.toInt ≤ 0 ∧ (f 0).z.toInt = 0 ∧ (f 500).z.toInt = 500 ∧ (f 501).z.toInt = 501 ∧ (f 1000).z.toInt = 1000 ∧
    1000 ≤ (f 0x7FFF).z.toInt ∧ (f 0).z = 0 ∧ (f 500).z = 500 ∧ (f 1000).z = 1000 := by decide
/-- All three on one target; y with r elsewhere; x with both elsewhere; an axis that no entry drives; the ends of the scale. -/
theorem witness_ManualAxesAndButtons :
    let m (x y r : Option AxisTarget) : AxisMapping := ⟨x, y, r⟩
    (m (some ⟨.lx, true⟩) (some ⟨.lx, true⟩) (some ⟨.lx, false⟩)).r = some ⟨.lx, false⟩ ∧
    notDriving (m none (some ⟨.ry, true⟩) (some ⟨.lx, false⟩)).r .ry ∧ (m none (some ⟨.ry, true⟩) none).y = some ⟨.ry, true⟩ ∧
    notDriving (m (some ⟨.ly, true⟩) (some ⟨.rx, true⟩) none).r .ly ∧ notDriving (m (some ⟨.ly, true⟩) (some ⟨.rx, true⟩) none).y .ly ∧
    (m (some ⟨.ly, true⟩) none none).x = some ⟨.ly, true⟩ ∧
    notDriving (some ⟨.lx, false⟩) .ry ∧ notDriving none .ry ∧ (-1000 : Int) ≤ 1000 := by
  refine ⟨rfl, ?_, rfl, ?_, ?_, rfl, ?_, ?_, by decide⟩ <;> intro t h <;> cases h <;> decide
/-- x drives left-x inverted, r drives right-y, left-y and right-x stay 0 (44 R273, R274). -/
theorem test_manual_axes :
    let g := manualToGamepad ⟨-1000, 1000, 500, 1000, 0, 0, 0⟩ ⟨some ⟨.lx, true⟩, none, some ⟨.ry, false⟩⟩
    g.lx.toInt = 32767 ∧ g.ly = 0 ∧ g.rx = 0 ∧ g.ry.toInt = 32767 := by decide +kernel
theorem witness_OnlyCheckedManualControlPublishes :
    let s := atMav .awaitCrcHigh .v2 0 [0, 0, 3, 0xFF, 0xBE, 0x45, 0, 0] [] 0x94
    s.cfg.protocol = .mavlink ∧ s.pulses.publish = none ∧ ran (exec (.inRx 0x99) s) (fun t => t.pulses.publish != none) := by decide +kernel
theorem witness_MavFramerNeverWedges :
    let s := withEvents (byteEvents [0x00, 1, 2, 3, 4, 5, 6]) (atMav .awaitLength .v1 0 [] [] 0)
    s.Inv ∧ s.cfg.protocol = .mavlink ∧ s.mav.st = .awaitLength ∧ 6 = hlen s.mav.ver + (0x00 : Byte).toNat + 2 :=
  ⟨inv_of, rfl, rfl, rfl⟩
theorem witness_MavFrameOnTheWirePublishes :
    (withEvents (byteEvents (mavFrameOf ⟨some (0, 0), 3, 0xFF, 0xBE⟩ 69 [] 0x9994)) (State.resetWith cM)).Inv ∧
    cM.protocol = .mavlink ∧ (State.resetWith cM).mav.st = .awaitSync ∧
    crcFor cM ⟨some (0, 0), 3, 0xFF, 0xBE⟩ 69 [] = 0x9994 ∧ (cM.extra 69).isSome = true :=
  ⟨inv_of, rfl, rfl, by decide +kernel, by decide⟩
theorem witness_WakeAndReadyRows :
    (atOut .waitValue true).out.st = .waitValue ∧ (atOut .waitValue true).mbox.hasNew = true ∧
    (atOut .waitValue false).out.st = .waitValue ∧ (atOut .waitValue false).mbox.hasNew = false ∧
    (atOut .waitReady true).out.st = .waitReady ∧ (atOut .waitReady true).mbox.hasNew = true ∧
    (atOut .sending true).out.st ≠ .waitReady := by decide
theorem witness_DoneAndReceiveErrorRows : (atOut .sending true).out.st = .sending ∧ (atOut .waitReady true).out.st ≠ .sending := by decide
/-- An event of every kind, and the kind and code its ports show (30 R108). -/
theorem witness_OutputPortsShowTheStep :
    let s (e : OutEvent) : State := { State.reset with pulses := { Pulses.quiet with evt := some e } }
    let shows (e : OutEvent) (kind : BitVec 3) (code : BitVec 5) : Prop :=
      (s e).pulses.evt = some e ∧ (portOut (s e)).evtKind = kind ∧ (portOut (s e)).evtCode = code
    shows (.reject .mavCrcMismatch) 4 24 ∧ shows (.heartbeat 1 2) 3 0 ∧ shows (.ignoredType 0x29) 2 0 ∧ shows (.ignoredMsg 30) 2 0 ∧
    shows (.telemetry 0x08 [1]) 1 0 ∧ shows (.update (.leftTrigger 9)) 0 0 := by decide +kernel
theorem witness_MailboxIsTheOnlySharedState :
    exec .outWake State.reset = .next State.reset ∧ ran (exec (.inRx 0x0A) State.reset) (emitted (.reject .txtMissingStar)) := by
  exact ⟨rfl, by decide⟩
theorem witness_InputSideCannotReadTheMailbox : ran (exec (.inRx 0x0A) State.reset) (emitted (.reject .txtMissingStar)) := by decide
theorem witness_SameCyclePublishFollowsTake :
    let s := { atOut .waitReady true with txt := (atText (ascii "UB:0001*2C")).txt }
    (withEvents [.cycle ⟨false, true, 0x0A, true, true, true, false⟩] s).inbox = .cycle ⟨false, true, 0x0A, true, true, true, false⟩ :: [] ∧
    s.out.st = .waitReady ∧ s.mbox.hasNew = true ∧ ran (exec (.inRx 0x0A) s) (fun u => u.pulses.publish == some ⟨1, 0, 0, 0, 0, 0, 0⟩) := by decide +kernel
theorem witness_TakenValuesAreASublistOfPublished : (withEvents [.ready] (atOut .waitReady true)).Inv ∧
    taken 1 (withEvents [.ready] (atOut .waitReady true)) = [⟨7, 0, 0, 0, 0, 0, 0⟩] := ⟨inv_of, rfl⟩
theorem witness_LatestPublishWins : (atOut .waitReady true).out.st = .waitReady ∧
    ran (execAll ([⟨1, 0, 0, 0, 0, 0, 0⟩, ⟨2, 0, 0, 0, 0, 0, 0⟩].map .mboxPublish ++ [.mboxPublish ⟨3, 0, 0, 0, 0, 0, 0⟩]) (atOut .waitReady true))
      (fun a => a.mbox.cell.buttons == 3) := by decide

end Sys2Proof.Tests
end

section
/-! The step of a received byte and the scaling function (family 00_scope): which row runs, what it leaves unchanged, that it
goes on in a state with the invariant. -/

namespace Sys2Proof.Machine

/-! ### Which instruction runs -/

/-- An event that stands on a code is the step of that code. -/
theorem runEvent_of_eventCode {e : Event} {code : Code} (h : eventCode e = some code) (s : State) :
    runEvent e s = runCode code s := by
  cases e <;> cases h <;> rfl

/-- Settles O5: the event's strobe is the code that `step` decodes. -/
theorem stepRunsTheDecodedInstruction : Obligations.StepRunsTheDecodedInstruction := by
  intro s e rest code i hinbox hcode hdec _
  calc step s = runEvent e (accept rest s) := step_cons hinbox
    _ = runCode code (accept rest s) := runEvent_of_eventCode hcode _
    _ = exec i (accept rest s) := runCode_ok hdec

/-- The byte-step row a byte selects is well-formed (30 R111). -/
theorem byteInstr_wf (c : Config) (ctx : ByteCtx) (b : Byte) : (byteInstr c ctx b).wf c = true := by
  cases ctx with
  | text => by_cases hlf : b = chLf <;> simp [byteInstr, Instr.wf, hlf]
  | crsf st =>
    cases st with
    | awaitSync => by_cases hsync : b ∈ c.crsfSync <;> simp [byteInstr, Instr.wf, hsync]
    | awaitLength | accumulatePayload | awaitCrc => rfl
  | mav st =>
    cases st with
    | awaitSync =>
      simp only [byteInstr]
      split
      · rfl
      · split
        · rfl
        · simp_all [Instr.wf]
    | awaitLength | accumulateHeader | accumulatePayload | awaitCrcLow | awaitCrcHigh => rfl

/-- IN.RX is the byte-step row that parser, state and byte select (45 R305). -/
theorem exec_inRx (b : Byte) (s : State) : exec (.inRx b) s = exec (byteInstr s.cfg (byteCtx s) b) s := by
  change execInRx b s = _
  unfold execInRx byteCtx
  cases s.cfg.protocol with
  | text => simp only [byteInstr]; split <;> rfl
  | crsf =>
    cases s.crsf.st with
    | awaitSync => simp only [byteInstr]; split <;> rfl
    | awaitLength | accumulatePayload | awaitCrc => rfl
  | mavlink =>
    cases s.mav.st with
    | awaitSync =>
      simp only [byteInstr]
      split
      · rfl
      · split <;> rfl
    | awaitLength | accumulateHeader | accumulatePayload | awaitCrcLow | awaitCrcHigh => rfl

/-- Settles O6: the row is `byteInstr`. -/
theorem receivedByteRunsItsSelectedRow : Obligations.ReceivedByteRunsItsSelectedRow :=
  fun b s => ⟨byteInstr s.cfg (byteCtx s) b, rfl, byteInstr_wf s.cfg (byteCtx s) b, exec_inRx b s⟩

/-! ### Absent parsers -/

theorem crsfIn_eq_true {s : State} {st : CrsfSt} : crsfIn s st = true ↔ s.cfg.protocol = .crsf ∧ s.crsf.st = st := by
  simp [crsfIn]

theorem mavIn_eq_true {s : State} {st : MavSt} : mavIn s st = true ↔ s.cfg.protocol = .mavlink ∧ s.mav.st = st := by
  simp [mavIn]

theorem crsfIn_of_absent {s : State} (h : s.cfg.protocol ≠ .crsf) (st : CrsfSt) : crsfIn s st = false := by
  simp [crsfIn, h]

theorem mavIn_of_absent {s : State} (h : s.cfg.protocol ≠ .mavlink) (st : MavSt) : mavIn s st = false := by
  simp [mavIn, h]

/-- Settles O11: every row of a parser is guarded by the presence of that parser (00 R3). -/
theorem absentParsersTakeNoStep : Obligations.AbsentParsersTakeNoStep := by
  intro i s p hi hp
  match i, p, hi with
  | .txtG rest, _, rfl => exact textRow_absent .full rest s hp
  | .txtUB val, _, rfl => exact textRow_absent .b val s hp
  | .txtULX val, _, rfl => exact textRow_absent .lx val s hp
  | .txtULY val, _, rfl => exact textRow_absent .ly val s hp
  | .txtURX val, _, rfl => exact textRow_absent .rx val s hp
  | .txtURY val, _, rfl => exact textRow_absent .ry val s hp
  | .txtULT val, _, rfl => exact textRow_absent .lt val s hp
  | .txtURT val, _, rfl => exact textRow_absent .rt val s hp
  | .txtByte b, _, rfl => simp [exec, execTxtByte, hp]
  | .txtLf, _, rfl => simp [exec, execTxtLf, hp]
  | .crsfSync b, _, rfl => simp [exec, execCrsfSync, crsfIn_of_absent hp]
  | .crsfSkip b, _, rfl => rfl
  | .crsfLen b, _, rfl => simp [exec, execCrsfLen, crsfIn_of_absent hp]
  | .crsfAcc b, _, rfl => simp [exec, execCrsfAcc, crsfIn_of_absent hp]
  | .crsfCrc b, _, rfl => simp [exec, execCrsfCrc, crsfIn_of_absent hp]
  | .crsfRc payload, _, rfl => simp [exec, execCrsfRc, hp]
  | .crsfTelem type payload, _, rfl => simp [exec, execCrsfTelem, hp]
  | .crsfUnknown type payload, _, rfl => simp [exec, execCrsfUnknown, hp]
  | .mavSync1, _, rfl => simp [exec, execMavSync1, mavIn_of_absent hp]
  | .mavSync2, _, rfl => simp [exec, execMavSync2, mavIn_of_absent hp]
  | .mavSkip b, _, rfl => rfl
  | .mavLen b, _, rfl => simp [exec, execMavLen, mavIn_of_absent hp]
  | .mavHdr b, _, rfl => simp [exec, execMavHdr, mavIn_of_absent hp]
  | .mavPay b, _, rfl => simp [exec, execMavPay, mavIn_of_absent hp]
  | .mavCrcLo b, _, rfl => simp [exec, execMavCrcLo, mavIn_of_absent hp]
  | .mavCrcHi b, _, rfl => simp [exec, execMavCrcHi, mavIn_of_absent hp]
  | .mavHeartbeat h payload, _, rfl => simp [exec, execMavHeartbeat, hp]
  | .mavManualControl h payload, _, rfl => simp [exec, execMavManualControl, hp]
  | .mavUnknown h id payload crc, _, rfl => simp [exec, execMavUnknown, hp]

/-! ### The scaling function -/

theorem clamp_mem {lo hi : Int} (h : lo ≤ hi) (v : Int) : lo ≤ clamp v lo hi ∧ clamp v lo hi ≤ hi := by
  unfold clamp
  split
  · exact ⟨le_refl lo, h⟩
  · split <;> omega

theorem clamp_eq_self {v lo hi : Int} (hlo : lo ≤ v) (hhi : v ≤ hi) : clamp v lo hi = v := by
  rw [clamp, if_neg (not_lt.2 hlo), if_neg (not_lt.2 hhi)]

theorem rdiv_nonneg {n d : Int} (hn : 0 ≤ n) (hd : 0 < d) : 0 ≤ rdiv n d :=
  Int.ediv_nonneg (by omega) (by omega)

/-- Rounding to the nearest integer does not pass a bound that is an integer. -/
theorem rdiv_le {n d k : Int} (hd : 0 < d) (h : n ≤ k * d) : rdiv n d ≤ k := by
  refine Int.le_of_lt_add_one (Int.ediv_lt_of_lt_mul (by omega) ?_)
  calc 2 * n + d < 2 * (k * d) + 2 * d := by omega
    _ = (k + 1) * (2 * d) := by ring

/-- lin scales a value that lies in its range, also after the reflection, so its result lies in 0..full (00 R10). -/
theorem lin_mem {lo hi full : Int} (hlt : lo < hi) (hfull : 0 ≤ full) (v : Int) (inv : Bool) :
    0 ≤ lin v lo hi inv full ∧ lin v lo hi inv full ≤ full := by
  obtain ⟨hclo, hchi⟩ := clamp_mem (le_of_lt hlt) v
  have scaled : ∀ c' : Int, lo ≤ c' → c' ≤ hi →
      0 ≤ rdiv ((c' - lo) * full) (hi - lo) ∧ rdiv ((c' - lo) * full) (hi - lo) ≤ full := by
    intro c' hlo hhi
    refine ⟨rdiv_nonneg (mul_nonneg (by omega) hfull) (by omega), rdiv_le (by omega) ?_⟩
    calc (c' - lo) * full ≤ (hi - lo) * full := mul_le_mul_of_nonneg_right (by omega) hfull
      _ = full * (hi - lo) := mul_comm _ _
  cases inv with
  | false => exact scaled (clamp v lo hi) hclo hchi
  | true => exact scaled (lo + hi - clamp v lo hi) (by omega) (by omega)

/-- Settles O37: `lin` stays in 0..full, where the outer clamps are the identity. -/
theorem scalingStaysInItsRange : Obligations.ScalingStaysInItsRange := by
  intro v lo hi inv hlt
  obtain ⟨hs0, hs1⟩ := lin_mem hlt (full := 65535) (by decide) v inv
  obtain ⟨ht0, ht1⟩ := lin_mem hlt (full := 255) (by decide) v inv
  exact ⟨fun full hfull => lin_mem hlt hfull v inv, clamp_eq_self (by omega) (by omega), clamp_eq_self ht0 ht1⟩

end Sys2Proof.Machine
end

section
/-! The completion of a received byte (00 R11, 45 R305): from a state with the invariant every row of every parser goes on, keeps the
invariant, and leaves the output task, the parameters and the further events as they are. -/

namespace Sys2Proof.Machine

/-! ### The invariant of a framer, state by state (41 R183, 43 R247) -/

section Framers

variable {s : State}

theorem State.crsfInv_scan (h : s.crsf.st = .awaitSync ∨ s.crsf.st = .awaitLength) :
    s.CrsfInv ↔ s.crsf.len = 0 ∧ s.crsf.idx = 0 := by
  rcases h with h | h <;> simp [State.CrsfInv, h]

theorem State.crsfInv_payload (h : s.crsf.st = .accumulatePayload) :
    s.CrsfInv ↔ (2 ≤ s.crsf.len.toNat ∧ s.crsf.len.toNat ≤ s.cfg.crsfMaxLen) ∧ s.crsf.idx.toNat + 1 < s.crsf.len.toNat := by
  simp [State.CrsfInv, h]

theorem State.crsfInv_crc (h : s.crsf.st = .awaitCrc) :
    s.CrsfInv ↔ (2 ≤ s.crsf.len.toNat ∧ s.crsf.len.toNat ≤ s.cfg.crsfMaxLen) ∧ s.crsf.idx.toNat + 1 = s.crsf.len.toNat := by
  simp [State.CrsfInv, h]

theorem State.mavInv_scan (h : s.mav.st = .awaitSync ∨ s.mav.st = .awaitLength) :
    s.MavInv ↔ s.mav.len = 0 ∧ s.mav.hidx = 0 ∧ s.mav.pidx = 0 := by
  rcases h with h | h <;> simp [State.MavInv, h]

theorem State.mavInv_header (h : s.mav.st = .accumulateHeader) :
    s.MavInv ↔ s.mav.hidx < hlen s.mav.ver ∧ s.mav.pidx = 0 := by
  simp [State.MavInv, h]

theorem State.mavInv_payload (h : s.mav.st = .accumulatePayload) :
    s.MavInv ↔ s.mav.hidx = hlen s.mav.ver ∧ 1 ≤ s.mav.len.toNat ∧ s.mav.pidx < s.mav.len.toNat := by
  simp [State.MavInv, h]

theorem State.mavInv_crc (h : s.mav.st = .awaitCrcLow ∨ s.mav.st = .awaitCrcHigh) :
    s.MavInv ↔ s.mav.hidx = hlen s.mav.ver ∧ s.mav.pidx = s.mav.len.toNat := by
  rcases h with h | h <;> simp [State.MavInv, h]

theorem hlen_pos (ver : MavVer) : 0 < hlen ver := by cases ver <;> decide

theorem hlen_le (ver : MavVer) : hlen ver ≤ 8 := by cases ver <;> decide

end Framers

/-! ### What the input side keeps -/

/-- `t` has the invariant, and what the input side may not touch stands in it as in `s`. -/
structure InputKeeps (s t : State) : Prop where
  inv : t.Inv
  out : t.out = s.out
  cfg : t.cfg = s.cfg
  inbox : t.inbox = s.inbox

theorem InputKeeps.refl {s : State} (h : s.Inv) : InputKeeps s s := ⟨h, rfl, rfl, rfl⟩

/-! Each operation of the input side keeps what is kept so far; a setter that writes registers beside an array owes their ranges. -/

section Operations

variable {s t : State} (h : InputKeeps s t)
include h

theorem InputKeeps.setTxt {r : TxtRegs} (hr : (t.setTxt r).TxtInv) (hbuf : r.buf = t.txt.buf := by rfl) :
    InputKeeps s (t.setTxt r) where
  inv := { h.inv with txtBuf := by simpa [State.ArrayInv, hbuf] using h.inv.txtBuf, txt := hr }
  out := h.out
  cfg := h.cfg
  inbox := h.inbox

theorem InputKeeps.setCrsf {r : CrsfRegs} (hr : (t.setCrsf r).CrsfInv) (hbuf : r.buf = t.crsf.buf := by rfl) :
    InputKeeps s (t.setCrsf r) where
  inv := { h.inv with crsfBuf := by simpa [State.ArrayInv, hbuf] using h.inv.crsfBuf, crsf := hr }
  out := h.out
  cfg := h.cfg
  inbox := h.inbox

theorem InputKeeps.setMav {r : MavRegs} (hr : (t.setMav r).MavInv) (hhdr : r.hdr = t.mav.hdr := by rfl)
    (hpay : r.pay = t.mav.pay := by rfl) : InputKeeps s (t.setMav r) where
  inv := { h.inv with
    mavHdr := by simpa [State.ArrayInv, hhdr] using h.inv.mavHdr
    mavPay := by simpa [State.ArrayInv, hpay] using h.inv.mavPay
    mav := hr }
  out := h.out
  cfg := h.cfg
  inbox := h.inbox

theorem InputKeeps.setPulses (p : Pulses) : InputKeeps s (t.setPulses p) where
  inv := { h.inv with }
  out := h.out
  cfg := h.cfg
  inbox := h.inbox

/-- A full mailbox is always legal: what the output task waits for is there (45 R308). -/
theorem InputKeeps.publish (g : GamepadState) : InputKeeps s (publish g t) where
  inv := { h.inv with out := fun _ => rfl }
  out := h.out
  cfg := h.cfg
  inbox := h.inbox

theorem InputKeeps.emit (e : OutEvent) : InputKeeps s (emit e t) := h.setPulses _

theorem InputKeeps.pulseLink : InputKeeps s (pulseLink t) := h.setPulses _

theorem InputKeeps.toScan (p : Protocol) : InputKeeps s (toScan p t) := by
  cases p with
  | text => exact h.setTxt ⟨Nat.zero_le _, nofun⟩
  | crsf => exact h.setCrsf ((State.crsfInv_scan (.inl rfl)).2 ⟨rfl, rfl⟩)
  | mavlink => exact h.setMav ((State.mavInv_scan (.inl rfl)).2 ⟨rfl, rfl, rfl⟩)

theorem InputKeeps.raiseReject (p : Protocol) (c : RejectCode) : InputKeeps s (raiseReject p c t) :=
  (h.toScan p).emit (.reject c)

theorem InputKeeps.finishLine (r : Except RejectCode LineMsg) : InputKeeps s (finishLine r t) := by
  cases r with
  | error c => exact h.raiseReject .text c
  | ok m =>
    have hheld : InputKeeps s (t.setTxt { t.txt with held := heldAfter t.txt.held m }) := h.setTxt h.inv.txt
    exact (hheld.emit (lineEvent m)).publish (heldAfter t.txt.held m)

/-- A byte written to an array changes that array alone, and it stays in form. -/
theorem InputKeeps.memWrite {b : BufId} {i : Nat} {v : Byte} {u : State} (hw : t.memWrite b i v = some u) : InputKeeps s u := by
  have harr : ∀ c, t.ArrayInv c → u.ArrayInv c := fun c => memWrite_keeps_arrays hw
  obtain ⟨-, rfl⟩ := memWrite_eq_some.1 hw
  cases b with
  | txtBuf => exact ⟨{ h.inv with txtBuf := harr _ h.inv.txtBuf }, h.out, h.cfg, h.inbox⟩
  | crsfBuf => exact ⟨{ h.inv with crsfBuf := harr _ h.inv.crsfBuf }, h.out, h.cfg, h.inbox⟩
  | mavHdr => exact ⟨{ h.inv with mavHdr := harr _ h.inv.mavHdr }, h.out, h.cfg, h.inbox⟩
  | mavPay => exact ⟨{ h.inv with mavPay := harr _ h.inv.mavPay }, h.out, h.cfg, h.inbox⟩

end Operations

theorem memRead_of_le {s : State} {b : BufId} {i n : Nat} (h : i + n ≤ Config.cap s.cfg b) :
    s.memRead b i n = some ((s.buf b).readRange i n) :=
  memRead_eq_some.2 ⟨h, rfl⟩

theorem memWrite_of_lt {s : State} {b : BufId} {i : Nat} (h : i < Config.cap s.cfg b) (v : Byte) :
    s.memWrite b i v = some (s.setBuf b ((s.buf b).write i v)) :=
  memWrite_eq_some.2 ⟨h, rfl⟩

/-- The outcome of a row of the input side that completes: a next state that keeps what it must. -/
def InputCompletes (s : State) (r : Res) : Prop := ∃ t, r = .next t ∧ InputKeeps s t

theorem InputKeeps.completes {s t : State} (h : InputKeeps s t) : InputCompletes s (.next t) := ⟨t, rfl, h⟩

/-! ### The text rows -/

section Rows

variable {s t : State}

theorem textRow_completes (h : InputKeeps s t) (k : LineKind) (operand : List Byte) : InputCompletes s (textRow k operand t) := by
  unfold textRow
  split
  · exact (h.finishLine (lineValue k operand)).completes
  · exact h.completes

/-- TXT.BYTE: a byte is stored only while the buffer has room, so the index stays in it. -/
theorem execTxtByte_completes (h : s.Inv) (b : Byte) : InputCompletes s (execTxtByte b s) := by
  have hs := InputKeeps.refl h
  obtain ⟨hidx, hovf⟩ := h.txt
  unfold execTxtByte
  split
  · split
    next hroom =>
      have hlt : s.txt.idx < s.cfg.textLineMax - 1 := by simpa [lineHasRoom] using hroom
      have hw := memWrite_of_lt (b := .txtBuf) hlt b
      rw [hw]
      refine ((hs.memWrite hw).setTxt ?_).completes
      refine ⟨hlt, fun ho => ?_⟩
      have hidxFull := hovf (by simpa [ovfAfterByte, hroom] using ho)
      omega
    next hroom =>
      have hfull : s.cfg.textLineMax - 1 ≤ s.txt.idx := by simpa [lineHasRoom] using hroom
      refine (hs.setTxt ?_).completes
      exact ⟨hidx, fun _ => le_antisymm hidx hfull⟩
  · exact hs.completes

/-- TXT.LF: the collected bytes lie in the buffer, which is empty when the line is parsed. -/
theorem execTxtLf_completes (h : s.Inv) : InputCompletes s (execTxtLf s) := by
  have hs := InputKeeps.refl h
  unfold execTxtLf
  split
  · split
    · exact (hs.raiseReject .text .txtLineTooLong).completes
    next hovf =>
      have hempty := hs.setTxt (r := { s.txt with idx := 0 }) ⟨Nat.zero_le _, fun ho => absurd ho hovf⟩
      rw [memRead_of_le (by simpa using h.txt.1)]
      dsimp only
      split
      · exact (hempty.raiseReject .text _).completes
      next k operand _ => exact runLine_eq k operand _ ▸ textRow_completes hempty k operand
  · exact hs.completes

/-! ### The CRSF rows -/

theorem execCrsfRc_completes (h : InputKeeps s t) (payload : List Byte) : InputCompletes s (execCrsfRc payload t) := by
  unfold execCrsfRc
  split
  · split
    · exact ((h.emit _).publish _).completes
    · exact (h.raiseReject .crsf .crsfBadPayloadLength).completes
  · exact h.completes

theorem execCrsfTelem_completes (h : InputKeeps s t) (type : Byte) (payload : List Byte) :
    InputCompletes s (execCrsfTelem type payload t) := by
  unfold execCrsfTelem
  split
  · exact (h.emit _).completes
  · exact h.completes

theorem execCrsfUnknown_completes (h : InputKeeps s t) (type : Byte) (payload : List Byte) :
    InputCompletes s (execCrsfUnknown type payload t) := by
  unfold execCrsfUnknown
  split
  · exact (h.emit _).completes
  · exact h.completes

theorem runCrsfFrame_completes (h : InputKeeps s t) (type : Byte) (payload : List Byte) :
    InputCompletes s (runCrsfFrame type payload t) := by
  unfold runCrsfFrame
  cases crsfClassify t.cfg type with
  | rc => exact execCrsfRc_completes h payload
  | telem => exact execCrsfTelem_completes h type payload
  | unknown => exact execCrsfUnknown_completes h type payload

theorem execCrsfSync_completes (h : s.Inv) (b : Byte) : InputCompletes s (execCrsfSync b s) := by
  have hs := InputKeeps.refl h
  unfold execCrsfSync
  split
  next hrun =>
    obtain ⟨-, hst⟩ := crsfIn_eq_true.1 hrun.1
    have hcleared := (State.crsfInv_scan (.inl hst)).1 h.crsf
    refine (hs.setCrsf ?_).completes
    exact (State.crsfInv_scan (.inr rfl)).2 hcleared
  · exact hs.completes

/-- CRSF.LEN: what is neither rejected as too long nor as too short is a legal length. -/
theorem execCrsfLen_completes (h : s.Inv) (b : Byte) : InputCompletes s (execCrsfLen b s) := by
  have hs := InputKeeps.refl h
  unfold execCrsfLen
  split
  · split
    · exact (hs.raiseReject .crsf .crsfOverLength).completes
    · split
      · exact (hs.raiseReject .crsf .crsfUnderLength).completes
      next hover hunder =>
        refine (hs.setCrsf ((State.crsfInv_payload rfl).2 ⟨⟨?_, ?_⟩, ?_⟩)).completes
        · exact not_lt.1 hunder
        · exact not_lt.1 hover
        · change 0 + 1 < b.toNat
          omega
  · exact hs.completes

/-- CRSF.ACC: the index stays below the length, and reaches its last value when the CRC is awaited. -/
theorem execCrsfAcc_completes (h : s.Inv) (b : Byte) : InputCompletes s (execCrsfAcc b s) := by
  have hs := InputKeeps.refl h
  unfold execCrsfAcc
  split
  next hrun =>
    obtain ⟨-, hst⟩ := crsfIn_eq_true.1 hrun
    obtain ⟨hlen, hidx⟩ := (State.crsfInv_payload hst).1 h.crsf
    have hw := memWrite_of_lt (s := s) (b := .crsfBuf) (i := s.crsf.idx.toNat) (by simp; omega) b
    rw [hw]
    refine ((hs.memWrite hw).setCrsf ?_).completes
    by_cases hlast : s.crsf.idx.toNat + 1 = s.crsf.len.toNat - 1
    · refine (State.crsfInv_crc (if_pos hlast)).2 ⟨hlen, ?_⟩
      change (s.crsf.idx + 1).toNat + 1 = s.crsf.len.toNat
      bv_omega
    · refine (State.crsfInv_payload ((if_neg hlast).trans hst)).2 ⟨hlen, ?_⟩
      change (s.crsf.idx + 1).toNat + 1 < s.crsf.len.toNat
      bv_omega
  · exact hs.completes

/-- CRSF.CRC: the body and the place of the CRC lie in the array, since the length is legal. -/
theorem execCrsfCrc_completes (h : s.Inv) (b : Byte) : InputCompletes s (execCrsfCrc b s) := by
  have hs := InputKeeps.refl h
  unfold execCrsfCrc
  split
  next hrun =>
    obtain ⟨-, hst⟩ := crsfIn_eq_true.1 hrun
    obtain ⟨⟨hlen2, hlenMax⟩, hidx⟩ := (State.crsfInv_crc hst).1 h.crsf
    have hw := memWrite_of_lt (s := s) (b := .crsfBuf) (i := s.crsf.idx.toNat) (by simp; omega) b
    rw [memRead_of_le (by simp; omega), hw]
    dsimp only
    split
    · exact runCrsfFrame_completes ((hs.memWrite hw).toScan .crsf) _ _
    · exact ((hs.memWrite hw).raiseReject .crsf .crsfCrcMismatch).completes
  · exact hs.completes

/-! ### The MAVLink rows -/

theorem execMavHeartbeat_completes (h : InputKeeps s t) (hd : MavHeader) (payload : List Byte) :
    InputCompletes s (execMavHeartbeat hd payload t) := by
  unfold execMavHeartbeat
  split
  · exact (h.emit _).pulseLink.completes
  · exact h.completes

theorem execMavManualControl_completes (h : InputKeeps s t) (hd : MavHeader) (payload : List Byte) :
    InputCompletes s (execMavManualControl hd payload t) := by
  unfold execMavManualControl
  split
  · exact ((h.emit _).publish _).completes
  · exact h.completes

theorem execMavUnknown_completes (h : InputKeeps s t) (hd : MavHeader) (id : MsgId) (payload : List Byte) (crc : Half) :
    InputCompletes s (execMavUnknown hd id payload crc t) := by
  unfold execMavUnknown
  split
  · exact (h.emit _).completes
  · exact h.completes

theorem runMavFrame_completes (h : InputKeeps s t) (cls : MavClass) (ver : MavVer) (hdr pay : List Byte) (crc : Half) :
    InputCompletes s (runMavFrame cls ver hdr pay crc t) := by
  cases cls with
  | heartbeat => exact execMavHeartbeat_completes h (headerOf ver hdr) pay
  | manualControl => exact execMavManualControl_completes h (headerOf ver hdr) pay
  | ignored => exact execMavUnknown_completes h (headerOf ver hdr) (msgIdOf ver hdr) pay crc

/-- A MAVLink sync byte of either header format: the framer goes on to the length with its counters still cleared. -/
theorem mavSync_completes (h : s.Inv) (ver : MavVer) :
    InputCompletes s (if mavIn s .awaitSync then .next (s.setMav { s.mav with ver := ver, st := .awaitLength }) else .next s) := by
  have hs := InputKeeps.refl h
  split
  next hrun =>
    obtain ⟨-, hst⟩ := mavIn_eq_true.1 hrun
    have hcleared := (State.mavInv_scan (.inl hst)).1 h.mav
    refine (hs.setMav ?_).completes
    exact (State.mavInv_scan (.inr rfl)).2 hcleared
  · exact hs.completes

theorem execMavLen_completes (h : s.Inv) (b : Byte) : InputCompletes s (execMavLen b s) := by
  have hs := InputKeeps.refl h
  unfold execMavLen
  split
  · refine (hs.setMav ?_).completes
    exact (State.mavInv_header rfl).2 ⟨hlen_pos s.mav.ver, rfl⟩
  · exact hs.completes

/-- MAV.HDR: the header index stays below hlen, and reaches it when the payload, or with length 0 the CRC, is awaited. -/
theorem execMavHdr_completes (h : s.Inv) (b : Byte) : InputCompletes s (execMavHdr b s) := by
  have hs := InputKeeps.refl h
  unfold execMavHdr
  split
  next hrun =>
    obtain ⟨-, hst⟩ := mavIn_eq_true.1 hrun
    obtain ⟨hlt, hpidx⟩ := (State.mavInv_header hst).1 h.mav
    have hcap := hlen_le s.mav.ver
    have hw := memWrite_of_lt (s := s) (b := .mavHdr) (i := s.mav.hidx) (by simp; omega) b
    rw [hw]
    refine ((hs.memWrite hw).setMav ?_).completes
    by_cases hlast : s.mav.hidx + 1 = hlen s.mav.ver
    · by_cases hlen : 0 < s.mav.len.toNat
      · refine (State.mavInv_payload ((if_pos hlast).trans (if_pos hlen))).2 ⟨hlast, hlen, ?_⟩
        exact hpidx.trans_lt hlen
      · refine (State.mavInv_crc (.inl ((if_pos hlast).trans (if_neg hlen)))).2 ⟨hlast, ?_⟩
        exact hpidx.trans (Nat.eq_zero_of_not_pos hlen).symm
    · exact (State.mavInv_header ((if_neg hlast).trans hst)).2 ⟨lt_of_le_of_ne hlt hlast, hpidx⟩
  · exact hs.completes

/-- MAV.PAY: the payload index stays below mav.len, and reaches it when the CRC is awaited. -/
theorem execMavPay_completes (h : s.Inv) (b : Byte) : InputCompletes s (execMavPay b s) := by
  have hs := InputKeeps.refl h
  unfold execMavPay
  split
  next hrun =>
    obtain ⟨-, hst⟩ := mavIn_eq_true.1 hrun
    obtain ⟨hhidx, hlen, hlt⟩ := (State.mavInv_payload hst).1 h.mav
    obtain ⟨-, -, -, -, -, hmax⟩ := h.cfg
    have hw := memWrite_of_lt (s := s) (b := .mavPay) (i := s.mav.pidx) (by simp; omega) b
    rw [hw]
    refine ((hs.memWrite hw).setMav ?_).completes
    by_cases hlast : s.mav.pidx + 1 = s.mav.len.toNat
    · exact (State.mavInv_crc (.inl (if_pos hlast))).2 ⟨hhidx, hlast⟩
    · exact (State.mavInv_payload ((if_neg hlast).trans hst)).2 ⟨hhidx, hlen, lt_of_le_of_ne hlt hlast⟩
  · exact hs.completes

theorem execMavCrcLo_completes (h : s.Inv) (b : Byte) : InputCompletes s (execMavCrcLo b s) := by
  have hs := InputKeeps.refl h
  unfold execMavCrcLo
  split
  next hrun =>
    obtain ⟨-, hst⟩ := mavIn_eq_true.1 hrun
    have hread := (State.mavInv_crc (.inl hst)).1 h.mav
    refine (hs.setMav ?_).completes
    exact (State.mavInv_crc (.inr rfl)).2 hread
  · exact hs.completes

/-- MAV.CRCHI: header and payload lie in their arrays, whatever the header format and the length. -/
theorem execMavCrcHi_completes (h : s.Inv) (b : Byte) : InputCompletes s (execMavCrcHi b s) := by
  have hs := InputKeeps.refl h
  unfold execMavCrcHi
  split
  · have hcap := hlen_le s.mav.ver
    obtain ⟨-, -, -, -, -, hmax⟩ := h.cfg
    rw [memRead_of_le (b := .mavHdr) (by simpa using hcap), memRead_of_le (b := .mavPay) (by simp; omega)]
    dsimp only
    split
    · exact (hs.raiseReject .mavlink _).completes
    · exact runMavFrame_completes (hs.toScan .mavlink) _ _ _ _ _
  · exact hs.completes

/-- Every row of every parser completes from a state with the invariant (00 R11). -/
theorem exec_parserRow_completes {i : Instr} {p : Protocol} (hi : parserOf i = some p) (h : s.Inv) :
    InputCompletes s (exec i s) := by
  have hs := InputKeeps.refl h
  match i, p, hi with
  | .txtG rest, _, rfl => exact textRow_completes hs .full rest
  | .txtUB val, _, rfl => exact textRow_completes hs .b val
  | .txtULX val, _, rfl => exact textRow_completes hs .lx val
  | .txtULY val, _, rfl => exact textRow_completes hs .ly val
  | .txtURX val, _, rfl => exact textRow_completes hs .rx val
  | .txtURY val, _, rfl => exact textRow_completes hs .ry val
  | .txtULT val, _, rfl => exact textRow_completes hs .lt val
  | .txtURT val, _, rfl => exact textRow_completes hs .rt val
  | .txtByte b, _, rfl => exact execTxtByte_completes h b
  | .txtLf, _, rfl => exact execTxtLf_completes h
  | .crsfSync b, _, rfl => exact execCrsfSync_completes h b
  | .crsfSkip b, _, rfl => exact hs.completes
  | .crsfLen b, _, rfl => exact execCrsfLen_completes h b
  | .crsfAcc b, _, rfl => exact execCrsfAcc_completes h b
  | .crsfCrc b, _, rfl => exact execCrsfCrc_completes h b
  | .crsfRc payload, _, rfl => exact execCrsfRc_completes hs payload
  | .crsfTelem type payload, _, rfl => exact execCrsfTelem_completes hs type payload
  | .crsfUnknown type payload, _, rfl => exact execCrsfUnknown_completes hs type payload
  | .mavSync1, _, rfl => exact mavSync_completes h .v1
  | .mavSync2, _, rfl => exact mavSync_completes h .v2
  | .mavSkip b, _, rfl => exact hs.completes
  | .mavLen b, _, rfl => exact execMavLen_completes h b
  | .mavHdr b, _, rfl => exact execMavHdr_completes h b
  | .mavPay b, _, rfl => exact execMavPay_completes h b
  | .mavCrcLo b, _, rfl => exact execMavCrcLo_completes h b
  | .mavCrcHi b, _, rfl => exact execMavCrcHi_completes h b
  | .mavHeartbeat hd payload, _, rfl => exact execMavHeartbeat_completes hs hd payload
  | .mavManualControl hd payload, _, rfl => exact execMavManualControl_completes hs hd payload
  | .mavUnknown hd id payload crc, _, rfl => exact execMavUnknown_completes hs hd id payload crc

end Rows

/-! ### The received byte -/

/-- The parser a received byte is for (30 R111). -/
def parserOfCtx : ByteCtx → Protocol
  | .text => .text
  | .crsf _ => .crsf
  | .mav _ => .mavlink

/-- A received byte selects a row of the parser it is for. -/
theorem parserOf_byteInstr (c : Config) (ctx : ByteCtx) (b : Byte) : parserOf (byteInstr c ctx b) = some (parserOfCtx ctx) := by
  cases ctx with
  | text => simp only [byteInstr]; split <;> rfl
  | crsf st =>
    cases st with
    | awaitSync => simp only [byteInstr]; split <;> rfl
    | awaitLength | accumulatePayload | awaitCrc => rfl
  | mav st =>
    cases st with
    | awaitSync =>
      simp only [byteInstr]
      split
      · rfl
      · split <;> rfl
    | awaitLength | accumulateHeader | accumulatePayload | awaitCrcLow | awaitCrcHigh => rfl

/-- Settles O9: IN.RX is the selected byte-step row, and every row of a parser completes. -/
theorem receivedByteCompletes : Obligations.ReceivedByteCompletes := by
  intro b s h
  obtain ⟨t, hnext, hkeeps⟩ := exec_parserRow_completes (parserOf_byteInstr s.cfg (byteCtx s) b) h
  exact ⟨t, (exec_inRx b s).trans hnext, hkeeps.inv, hkeeps.out, hkeeps.cfg, hkeeps.inbox⟩

end Sys2Proof.Machine
end

section
/-! The state (family 10_state): the bus layout of a GamepadState, the reset values. -/

namespace Sys2Proof.Machine

/-! ### The bus layout (10 R43) -/

/-- Appended bit vectors are digits of one number, the right one the less significant. -/
theorem toNat_append_eq_add {v w : Nat} (x : BitVec v) (y : BitVec w) : (x ++ y).toNat = y.toNat + 2 ^ w * x.toNat := by
  rw [BitVec.toNat_append, ← Nat.shiftLeft_add_eq_or_of_lt y.isLt, Nat.shiftLeft_eq]
  ring

theorem toNat_toBus (g : GamepadState) :
    (toBus g).toNat = g.buttons.toNat + 2 ^ 16 * g.lx.toNat + 2 ^ 32 * g.ly.toNat + 2 ^ 48 * g.rx.toNat + 2 ^ 64 * g.ry.toNat +
      2 ^ 80 * g.lt.toNat + 2 ^ 88 * g.rt.toNat := by
  simp only [toBus, toNat_append_eq_add]
  ring

/-- A bit slice is a digit of the number. -/
theorem extractLsb'_eq_of_digit {v w k : Nat} {x : BitVec v} {y : BitVec w} (h : x.toNat / 2 ^ k % 2 ^ w = y.toNat) :
    x.extractLsb' k w = y :=
  BitVec.eq_of_toNat_eq (by rw [BitVec.extractLsb'_toNat, Nat.shiftRight_eq_div_pow, h])

theorem ofBus_toBus (g : GamepadState) : ofBus (toBus g) = g := by
  have hsum := toNat_toBus g
  change ofBus (toBus g) = ⟨g.buttons, g.lx, g.ly, g.rx, g.ry, g.lt, g.rt⟩
  simp only [ofBus, GamepadState.mk.injEq]
  and_intros <;> exact extractLsb'_eq_of_digit (by omega)

/-- Settles O4: the sum of the fields at their places, and its digits. -/
theorem busLayoutOfAState : Obligations.BusLayoutOfAState := fun g => ⟨toNat_toBus g, ofBus_toBus g⟩

/-! ### Reset (10 R42, 70 R380) -/

theorem resetWith_atReset (c : Config) : (State.resetWith c).AtReset := by
  and_intros <;> rfl

/-- The arrays are empty, both framers scan with their counters cleared, and no value is waited for. -/
theorem resetWith_inv {c : Config} (h : c.wf) : (State.resetWith c).Inv where
  cfg := h
  txtBuf := ⟨Memory.wf_nil, nofun⟩
  crsfBuf := ⟨Memory.wf_nil, nofun⟩
  mavHdr := ⟨Memory.wf_nil, nofun⟩
  mavPay := ⟨Memory.wf_nil, nofun⟩
  txt := ⟨Nat.zero_le _, nofun⟩
  crsf := (State.crsfInv_scan (.inl rfl)).2 ⟨rfl, rfl⟩
  mav := (State.mavInv_scan (.inl rfl)).2 ⟨rfl, rfl, rfl⟩
  out := nofun

theorem runCycle_of_rst {p : PortIn} (h : p.rst = true) (s : State) : runCycle p s = .next (applyReset s) := by
  simp [runCycle, h]

/-- Settles O12: the event and the cycle are the same step, to `applyReset` of the state that took the event. -/
theorem resetYieldsTheResetValues : Obligations.ResetYieldsTheResetValues := by
  intro s rest p hrst hinbox
  have hstep : step s = .next (applyReset (accept rest s)) := by
    rcases hinbox with hinbox | hinbox
    · exact step_cons hinbox
    · exact (step_cons hinbox).trans (runCycle_of_rst hrst _)
  exact ⟨_, hstep, resetWith_atReset s.cfg, rfl, rfl, rfl⟩

/-- Settles O13. -/
theorem resetStateHasTheInvariant : Obligations.ResetStateHasTheInvariant :=
  ⟨resetWith_atReset _, resetWith_inv (by decide), fun c hc => ⟨resetWith_atReset c, resetWith_inv hc⟩⟩

end Sys2Proof.Machine
end

section
/-! What the rows of the input side read and keep (family 10_state; 10 R41 (b), R39): every row of a parser, run again with other mailbox and output
registers, does the same to everything else, and no instruction writes a parameter. -/

namespace Sys2Proof.Machine

/-! ### The registers of the mailbox and the output task, replaced -/

/-- The state with these mailbox and output registers. -/
def State.withOutputSide (s : State) (m : MboxRegs) (o : OutRegs) : State := { s with mbox := m, out := o }

section OutputSide

variable (s : State) (m : MboxRegs) (o : OutRegs)

@[simp] theorem State.withOutputSide_cfg : (s.withOutputSide m o).cfg = s.cfg := rfl
@[simp] theorem State.withOutputSide_txt : (s.withOutputSide m o).txt = s.txt := rfl
@[simp] theorem State.withOutputSide_crsf : (s.withOutputSide m o).crsf = s.crsf := rfl
@[simp] theorem State.withOutputSide_mav : (s.withOutputSide m o).mav = s.mav := rfl

@[simp] theorem memRead_withOutputSide (b : BufId) (i n : Nat) : (s.withOutputSide m o).memRead b i n = s.memRead b i n := by
  cases b <;> rfl

@[simp] theorem memWrite_withOutputSide (b : BufId) (i : Nat) (v : Byte) :
    (s.withOutputSide m o).memWrite b i v = (s.memWrite b i v).map (·.withOutputSide m o) := by
  by_cases hi : i < Config.cap s.cfg b
  · rw [memWrite_of_lt hi, memWrite_of_lt (by exact hi)]
    cases b <;> rfl
  · have hcap := not_lt.1 hi
    rw [memWrite_eq_none.2 hcap, memWrite_eq_none.2 (by exact hcap)]
    rfl

end OutputSide

theorem memWrite_cfg {s t : State} {b : BufId} {i : Nat} {v : Byte} (h : s.memWrite b i v = some t) : t.cfg = s.cfg := by
  obtain ⟨-, rfl⟩ := memWrite_eq_some.1 h
  exact (State.setBuf_fields ..).1

/-! ### Two runs of a row that differ in the output side only -/

/-- The outcomes of two runs that agree but for the mailbox and output registers: the same fault, or next states that agree so
again, with the parameters `c` and, in the second, the output registers `o`. -/
inductive InLockstep (c : Config) (o : OutRegs) : Res → Res → Prop
  | next {t : State} (m : MboxRegs) (hcfg : t.cfg = c) : InLockstep c o (.next t) (.next (t.withOutputSide m o))
  | fault (f : Fault) : InLockstep c o (.fault f) (.fault f)

/-- A condition that both runs read alike. -/
theorem InLockstep.ite {c : Config} {o : OutRegs} {p : Prop} [Decidable p] {r₁ r₁' r₂ r₂' : Res} (ht : InLockstep c o r₁ r₁')
    (he : InLockstep c o r₂ r₂') : InLockstep c o (if p then r₁ else r₂) (if p then r₁' else r₂') := by
  split
  · exact ht
  · exact he

/-! Each row's proof has the shape of the row: what the row tests, both runs read alike, and each branch ends in step. -/

section Rows

variable {c : Config} {s : State} (h : s.cfg = c) (m : MboxRegs) (o : OutRegs)
include h

/-- An access outside an array faults in both runs, one inside it writes the same byte in both. -/
theorem memWrite_lockstep {b : BufId} {i : Nat} {v : Byte} {f : Fault} {k k' : State → Res}
    (hk : ∀ u : State, u.cfg = c → InLockstep c o (k u) (k' (u.withOutputSide m o))) :
    InLockstep c o (match s.memWrite b i v with | none => .fault f | some u => k u)
      (match (s.withOutputSide m o).memWrite b i v with | none => .fault f | some u => k' u) := by
  rw [memWrite_withOutputSide]
  cases hw : s.memWrite b i v with
  | none => exact .fault f
  | some u => exact hk u ((memWrite_cfg hw).trans h)

theorem raiseReject_lockstep (p : Protocol) (code : RejectCode) :
    InLockstep c o (.next (raiseReject p code s)) (.next (raiseReject p code (s.withOutputSide m o))) := by
  cases p <;> exact .next m h

/-- A publish overwrites the mailbox, whatever it held. -/
theorem finishLine_lockstep (r : Except RejectCode LineMsg) :
    InLockstep c o (.next (finishLine r s)) (.next (finishLine r (s.withOutputSide m o))) := by
  cases r with
  | error code => exact raiseReject_lockstep h m o .text code
  | ok msg => exact .next ⟨heldAfter s.txt.held msg, true⟩ h

theorem textRow_lockstep (k : LineKind) (operand : List Byte) :
    InLockstep c o (textRow k operand s) (textRow k operand (s.withOutputSide m o)) :=
  .ite (finishLine_lockstep h m o _) (.next m h)

theorem execTxtByte_lockstep (b : Byte) : InLockstep c o (execTxtByte b s) (execTxtByte b (s.withOutputSide m o)) :=
  .ite (.ite (memWrite_lockstep h m o fun _ hu => .next m hu) (.next m h)) (.next m h)

theorem execTxtLf_lockstep : InLockstep c o (execTxtLf s) (execTxtLf (s.withOutputSide m o)) := by
  refine .ite (.ite (raiseReject_lockstep h m o .text _) ?_) (.next m h)
  simp only [State.withOutputSide_txt, memRead_withOutputSide]
  cases s.memRead .txtBuf 0 s.txt.idx with
  | none => exact .fault _
  | some bytes =>
    have hempty : (s.setTxt { s.txt with idx := 0 }).cfg = c := h
    dsimp only
    cases splitLine (bytes ++ [chLf]) with
    | error code => exact raiseReject_lockstep hempty m o .text code
    | ok line =>
      simp only [runLine_eq]
      exact textRow_lockstep hempty m o line.1 line.2

/-! The CRSF rows. -/

theorem execCrsfRc_lockstep (payload : List Byte) :
    InLockstep c o (execCrsfRc payload s) (execCrsfRc payload (s.withOutputSide m o)) :=
  .ite (.ite (.next ⟨channelsToGamepad (unpack payload) s.cfg.channelMap, true⟩ h)
    (raiseReject_lockstep h m o .crsf .crsfBadPayloadLength)) (.next m h)

theorem execCrsfTelem_lockstep (type : Byte) (payload : List Byte) :
    InLockstep c o (execCrsfTelem type payload s) (execCrsfTelem type payload (s.withOutputSide m o)) :=
  .ite (.next m h) (.next m h)

theorem execCrsfUnknown_lockstep (type : Byte) (payload : List Byte) :
    InLockstep c o (execCrsfUnknown type payload s) (execCrsfUnknown type payload (s.withOutputSide m o)) :=
  .ite (.next m h) (.next m h)

theorem runCrsfFrame_lockstep (type : Byte) (payload : List Byte) :
    InLockstep c o (runCrsfFrame type payload s) (runCrsfFrame type payload (s.withOutputSide m o)) := by
  simp only [runCrsfFrame, State.withOutputSide_cfg]
  cases crsfClassify s.cfg type with
  | rc => exact execCrsfRc_lockstep h m o payload
  | telem => exact execCrsfTelem_lockstep h m o type payload
  | unknown => exact execCrsfUnknown_lockstep h m o type payload

theorem execCrsfSync_lockstep (b : Byte) : InLockstep c o (execCrsfSync b s) (execCrsfSync b (s.withOutputSide m o)) :=
  .ite (.next m h) (.next m h)

theorem execCrsfLen_lockstep (b : Byte) : InLockstep c o (execCrsfLen b s) (execCrsfLen b (s.withOutputSide m o)) :=
  .ite (.ite (raiseReject_lockstep h m o .crsf .crsfOverLength)
    (.ite (raiseReject_lockstep h m o .crsf .crsfUnderLength) (.next m h))) (.next m h)

theorem execCrsfAcc_lockstep (b : Byte) : InLockstep c o (execCrsfAcc b s) (execCrsfAcc b (s.withOutputSide m o)) :=
  .ite (memWrite_lockstep h m o fun _ hu => .next m hu) (.next m h)

theorem execCrsfCrc_lockstep (b : Byte) : InLockstep c o (execCrsfCrc b s) (execCrsfCrc b (s.withOutputSide m o)) := by
  refine .ite ?_ (.next m h)
  simp only [State.withOutputSide_crsf, memRead_withOutputSide, memWrite_withOutputSide]
  cases s.memRead .crsfBuf 0 (s.crsf.len.toNat - 1) with
  | none => exact .fault _
  | some body =>
    cases hw : s.memWrite .crsfBuf s.crsf.idx.toNat b with
    | none => exact .fault _
    | some u =>
      have hu := (memWrite_cfg hw).trans h
      exact .ite (runCrsfFrame_lockstep (s := toScan .crsf u) hu m o _ _)
        (raiseReject_lockstep hu m o .crsf .crsfCrcMismatch)

/-! The MAVLink rows. -/

theorem execMavHeartbeat_lockstep (hd : MavHeader) (payload : List Byte) :
    InLockstep c o (execMavHeartbeat hd payload s) (execMavHeartbeat hd payload (s.withOutputSide m o)) :=
  .ite (.next m h) (.next m h)

theorem execMavManualControl_lockstep (hd : MavHeader) (payload : List Byte) :
    InLockstep c o (execMavManualControl hd payload s) (execMavManualControl hd payload (s.withOutputSide m o)) :=
  .ite (.next ⟨manualToGamepad (manualFields payload) s.cfg.axisMap, true⟩ h) (.next m h)

theorem execMavUnknown_lockstep (hd : MavHeader) (id : MsgId) (payload : List Byte) (crc : Half) :
    InLockstep c o (execMavUnknown hd id payload crc s) (execMavUnknown hd id payload crc (s.withOutputSide m o)) :=
  .ite (.next m h) (.next m h)

theorem runMavFrame_lockstep (cls : MavClass) (ver : MavVer) (hdr pay : List Byte) (crc : Half) :
    InLockstep c o (runMavFrame cls ver hdr pay crc s) (runMavFrame cls ver hdr pay crc (s.withOutputSide m o)) := by
  cases cls with
  | heartbeat => exact execMavHeartbeat_lockstep h m o (headerOf ver hdr) pay
  | manualControl => exact execMavManualControl_lockstep h m o (headerOf ver hdr) pay
  | ignored => exact execMavUnknown_lockstep h m o (headerOf ver hdr) (msgIdOf ver hdr) pay crc

theorem execMavSync1_lockstep : InLockstep c o (execMavSync1 s) (execMavSync1 (s.withOutputSide m o)) :=
  .ite (.next m h) (.next m h)

theorem execMavSync2_lockstep : InLockstep c o (execMavSync2 s) (execMavSync2 (s.withOutputSide m o)) :=
  .ite (.next m h) (.next m h)

theorem execMavLen_lockstep (b : Byte) : InLockstep c o (execMavLen b s) (execMavLen b (s.withOutputSide m o)) :=
  .ite (.next m h) (.next m h)

theorem execMavHdr_lockstep (b : Byte) : InLockstep c o (execMavHdr b s) (execMavHdr b (s.withOutputSide m o)) :=
  .ite (memWrite_lockstep h m o fun _ hu => .next m hu) (.next m h)

theorem execMavPay_lockstep (b : Byte) : InLockstep c o (execMavPay b s) (execMavPay b (s.withOutputSide m o)) :=
  .ite (memWrite_lockstep h m o fun _ hu => .next m hu) (.next m h)

theorem execMavCrcLo_lockstep (b : Byte) : InLockstep c o (execMavCrcLo b s) (execMavCrcLo b (s.withOutputSide m o)) :=
  .ite (.next m h) (.next m h)

theorem execMavCrcHi_lockstep (b : Byte) : InLockstep c o (execMavCrcHi b s) (execMavCrcHi b (s.withOutputSide m o)) := by
  refine .ite ?_ (.next m h)
  simp only [State.withOutputSide_cfg, State.withOutputSide_mav, memRead_withOutputSide]
  cases s.memRead .mavHdr 0 (hlen s.mav.ver) with
  | none => exact .fault _
  | some hdr =>
    cases s.memRead .mavPay 0 s.mav.len.toNat with
    | none => exact .fault _
    | some pay =>
      dsimp only
      cases mavClassify s.cfg s.mav.ver s.mav.len hdr pay (le16 s.mav.crcLo b) with
      | error code => exact raiseReject_lockstep h m o .mavlink code
      | ok cls => exact runMavFrame_lockstep (s := toScan .mavlink s) h m o cls _ _ _ _

end Rows

/-- Every row of every parser neither reads the output side nor writes a parameter. -/
theorem exec_parserRow_lockstep {i : Instr} {p : Protocol} (hi : parserOf i = some p) (s : State) (m : MboxRegs) (o : OutRegs) :
    InLockstep s.cfg o (exec i s) (exec i (s.withOutputSide m o)) := by
  match i, p, hi with
  | .txtG rest, _, rfl => exact textRow_lockstep rfl m o .full rest
  | .txtUB val, _, rfl => exact textRow_lockstep rfl m o .b val
  | .txtULX val, _, rfl => exact textRow_lockstep rfl m o .lx val
  | .txtULY val, _, rfl => exact textRow_lockstep rfl m o .ly val
  | .txtURX val, _, rfl => exact textRow_lockstep rfl m o .rx val
  | .txtURY val, _, rfl => exact textRow_lockstep rfl m o .ry val
  | .txtULT val, _, rfl => exact textRow_lockstep rfl m o .lt val
  | .txtURT val, _, rfl => exact textRow_lockstep rfl m o .rt val
  | .txtByte b, _, rfl => exact execTxtByte_lockstep rfl m o b
  | .txtLf, _, rfl => exact execTxtLf_lockstep rfl m o
  | .crsfSync b, _, rfl => exact execCrsfSync_lockstep rfl m o b
  | .crsfSkip _, _, rfl => exact .next m rfl
  | .crsfLen b, _, rfl => exact execCrsfLen_lockstep rfl m o b
  | .crsfAcc b, _, rfl => exact execCrsfAcc_lockstep rfl m o b
  | .crsfCrc b, _, rfl => exact execCrsfCrc_lockstep rfl m o b
  | .crsfRc payload, _, rfl => exact execCrsfRc_lockstep rfl m o payload
  | .crsfTelem type payload, _, rfl => exact execCrsfTelem_lockstep rfl m o type payload
  | .crsfUnknown type payload, _, rfl => exact execCrsfUnknown_lockstep rfl m o type payload
  | .mavSync1, _, rfl => exact execMavSync1_lockstep rfl m o
  | .mavSync2, _, rfl => exact execMavSync2_lockstep rfl m o
  | .mavSkip _, _, rfl => exact .next m rfl
  | .mavLen b, _, rfl => exact execMavLen_lockstep rfl m o b
  | .mavHdr b, _, rfl => exact execMavHdr_lockstep rfl m o b
  | .mavPay b, _, rfl => exact execMavPay_lockstep rfl m o b
  | .mavCrcLo b, _, rfl => exact execMavCrcLo_lockstep rfl m o b
  | .mavCrcHi b, _, rfl => exact execMavCrcHi_lockstep rfl m o b
  | .mavHeartbeat hd payload, _, rfl => exact execMavHeartbeat_lockstep rfl m o hd payload
  | .mavManualControl hd payload, _, rfl => exact execMavManualControl_lockstep rfl m o hd payload
  | .mavUnknown hd id payload crc, _, rfl => exact execMavUnknown_lockstep rfl m o hd id payload crc

/-- IN.RX selects its row by what both runs share: the parameters, the parser's state register and the byte. -/
theorem exec_inRx_lockstep (b : Byte) (s : State) (m : MboxRegs) (o : OutRegs) :
    InLockstep s.cfg o (exec (.inRx b) s) (exec (.inRx b) (s.withOutputSide m o)) := by
  have hctx : byteCtx (s.withOutputSide m o) = byteCtx s := rfl
  rw [exec_inRx, exec_inRx, State.withOutputSide_cfg, hctx]
  exact exec_parserRow_lockstep (parserOf_byteInstr s.cfg (byteCtx s) b) s m o

/-- Settles O57: two runs of IN.RX that differ in the output side stay in step. -/
theorem inputSideCannotReadTheMailbox : Obligations.InputSideCannotReadTheMailbox := by
  intro b s t m o hnext
  change ∃ u, exec (.inRx b) (s.withOutputSide m o) = .next u ∧ _
  have hstep := exec_inRx_lockstep b s m o
  rw [hnext] at hstep
  generalize exec (.inRx b) (s.withOutputSide m o) = r at hstep ⊢
  cases hstep
  exact ⟨_, rfl, rfl, rfl, rfl, rfl, rfl⟩

/-! ### The parameters -/

/-- A step that goes on leaves the parameters as they were. -/
def KeepsCfg (s : State) (r : Res) : Prop := ∀ t, r = .next t → t.cfg = s.cfg

theorem keepsCfg_next {s t : State} (h : t.cfg = s.cfg) : KeepsCfg s (.next t) := by
  rintro _ ⟨⟩
  exact h

theorem InLockstep.keepsCfg {s : State} {o : OutRegs} {r r' : Res} (h : InLockstep s.cfg o r r') : KeepsCfg s r := by
  rintro t rfl
  cases h with
  | next m hcfg => exact hcfg

theorem exec_keepsCfg (i : Instr) (s : State) : KeepsCfg s (exec i s) := by
  cases hp : parserOf i with
  | some p => exact (exec_parserRow_lockstep hp s s.mbox s.out).keepsCfg
  | none =>
    match i, hp with
    | .mboxPublish _, _ => exact keepsCfg_next rfl
    | .mboxTake, _ => exact keepsCfg_next rfl
    | .inRx b, _ => exact (exec_inRx_lockstep b s s.mbox s.out).keepsCfg
    | .inRxErr, _ => exact keepsCfg_next rfl
    | .outWake, _ =>
      rw [execOutWake_eq]
      split <;> exact keepsCfg_next rfl
    | .outReady, _ =>
      simp only [exec, execOutReady]
      split <;> exact keepsCfg_next rfl
    | .outDone ok, _ =>
      simp only [exec, execOutDone]
      split
      · cases ok <;> exact keepsCfg_next rfl
      · exact keepsCfg_next rfl

theorem execAll_keepsCfg (is : List Instr) (s : State) : KeepsCfg s (execAll is s) := by
  induction is generalizing s with
  | nil => exact keepsCfg_next rfl
  | cons i is ih =>
    intro t ht
    cases hi : exec i s with
    | next u =>
      rw [execAll_cons i is s u hi] at ht
      exact (ih u t ht).trans (exec_keepsCfg i s u hi)
    | fault f => simp [execAll, hi] at ht
    | refused r => simp [execAll, hi] at ht

theorem runCode_keepsCfg (code : Code) (s : State) : KeepsCfg s (runCode code s) := by
  unfold runCode
  split
  · exact exec_keepsCfg _ s
  · exact keepsCfg_next rfl

theorem runCycle_keepsCfg (p : PortIn) (s : State) : KeepsCfg s (runCycle p s) := by
  unfold runCycle
  split
  · exact keepsCfg_next rfl
  · exact execAll_keepsCfg _ s

theorem runEvent_keepsCfg (e : Event) (s : State) : KeepsCfg s (runEvent e s) := by
  cases e with
  | reset => exact keepsCfg_next rfl
  | cycle p => exact runCycle_keepsCfg p s
  | rxByte b => exact runCode_keepsCfg (rxCode b) s
  | rxError => exact runCode_keepsCfg rxErrCode s
  | wake => exact runCode_keepsCfg wakeCode s
  | ready => exact runCode_keepsCfg readyCode s
  | sendDone ok => exact runCode_keepsCfg (doneCode ok) s

/-- Settles O10: the wake step and every event keep the parameters. -/
theorem parametersNeverChange : Obligations.ParametersNeverChange := by
  intro s t hstep
  cases hinbox : s.inbox with
  | nil => exact exec_keepsCfg .outWake (accept [] s) t (step_nil hinbox ▸ hstep)
  | cons e rest => exact runEvent_keepsCfg e (accept rest s) t (step_cons hinbox ▸ hstep)

end Sys2Proof.Machine
end

section
/-! What the input side does to the mailbox (20 R69; 45 R301, R305): every row of a parser leaves what it shares with the output side
as it was, or publishes. -/

namespace Sys2Proof.Machine

/-! ### What the two tasks share -/

/-- The mailbox, the output task's registers, and the strobes by which the mailbox was used in this step. -/
structure MailboxView where
  mbox : MboxRegs
  out : OutRegs
  publish : Option GamepadState
  take : Option GamepadState

def State.mailboxView (s : State) : MailboxView := ⟨s.mbox, s.out, s.pulses.publish, s.pulses.take⟩

/-- The view after a publish: the cell overwritten, has_new set, the strobe raised (45 R301). -/
def MailboxView.withPublish (v : MailboxView) (g : GamepadState) : MailboxView := { v with mbox := ⟨g, true⟩, publish := some g }

theorem State.mailboxView_publish (g : GamepadState) (s : State) :
    (publish g s).mailboxView = s.mailboxView.withPublish g := rfl

theorem mailboxView_memWrite {s t : State} {b : BufId} {i : Nat} {v : Byte} (h : s.memWrite b i v = some t) :
    t.mailboxView = s.mailboxView := by
  obtain ⟨-, rfl⟩ := memWrite_eq_some.1 h
  cases b <;> rfl

/-- Everything a row of the input side can do to what the tasks share: keep it, publish one value, or fault. -/
inductive InputOutcome (s : State) : Res → Prop
  | kept {t : State} (h : t.mailboxView = s.mailboxView) : InputOutcome s (.next t)
  | published {t : State} (g : GamepadState) (h : t.mailboxView = s.mailboxView.withPublish g) : InputOutcome s (.next t)
  | fault (f : Fault) : InputOutcome s (.fault f)

theorem InputOutcome.ite {s : State} {p : Prop} [Decidable p] {r r' : Res} (ht : InputOutcome s r) (he : InputOutcome s r') :
    InputOutcome s (if p then r else r') := by
  split
  · exact ht
  · exact he

/-! ### The rows that complete a line or a frame, in a state that shares what `s` shares -/

section FrameRows

variable {s t : State} (h : t.mailboxView = s.mailboxView)
include h

theorem publish_outcome (g : GamepadState) : InputOutcome s (.next (publish g t)) :=
  .published g (by rw [State.mailboxView_publish, h])

theorem raiseReject_outcome (p : Protocol) (code : RejectCode) : InputOutcome s (.next (raiseReject p code t)) := by
  cases p <;> exact .kept h

theorem finishLine_outcome (r : Except RejectCode LineMsg) : InputOutcome s (.next (finishLine r t)) := by
  cases r with
  | error code => exact raiseReject_outcome h .text code
  | ok msg =>
    have hheld : (emit (lineEvent msg) (t.setTxt { t.txt with held := heldAfter t.txt.held msg })).mailboxView = s.mailboxView := h
    exact publish_outcome hheld (heldAfter t.txt.held msg)

theorem textRow_outcome (k : LineKind) (operand : List Byte) : InputOutcome s (textRow k operand t) :=
  .ite (finishLine_outcome h _) (.kept h)

theorem execCrsfRc_outcome (payload : List Byte) : InputOutcome s (execCrsfRc payload t) :=
  .ite (.ite (publish_outcome (t := emit _ t) h _) (raiseReject_outcome h .crsf .crsfBadPayloadLength)) (.kept h)

theorem execCrsfTelem_outcome (type : Byte) (payload : List Byte) : InputOutcome s (execCrsfTelem type payload t) :=
  .ite (.kept h) (.kept h)

theorem execCrsfUnknown_outcome (type : Byte) (payload : List Byte) : InputOutcome s (execCrsfUnknown type payload t) :=
  .ite (.kept h) (.kept h)

theorem runCrsfFrame_outcome (type : Byte) (payload : List Byte) : InputOutcome s (runCrsfFrame type payload t) := by
  unfold runCrsfFrame
  cases crsfClassify t.cfg type with
  | rc => exact execCrsfRc_outcome h payload
  | telem => exact execCrsfTelem_outcome h type payload
  | unknown => exact execCrsfUnknown_outcome h type payload

theorem execMavHeartbeat_outcome (hd : MavHeader) (payload : List Byte) : InputOutcome s (execMavHeartbeat hd payload t) :=
  .ite (.kept h) (.kept h)

theorem execMavManualControl_outcome (hd : MavHeader) (payload : List Byte) :
    InputOutcome s (execMavManualControl hd payload t) :=
  .ite (publish_outcome (t := emit _ t) h _) (.kept h)

theorem execMavUnknown_outcome (hd : MavHeader) (id : MsgId) (payload : List Byte) (crc : Half) :
    InputOutcome s (execMavUnknown hd id payload crc t) :=
  .ite (.kept h) (.kept h)

theorem runMavFrame_outcome (cls : MavClass) (ver : MavVer) (hdr pay : List Byte) (crc : Half) :
    InputOutcome s (runMavFrame cls ver hdr pay crc t) := by
  cases cls with
  | heartbeat => exact execMavHeartbeat_outcome h (headerOf ver hdr) pay
  | manualControl => exact execMavManualControl_outcome h (headerOf ver hdr) pay
  | ignored => exact execMavUnknown_outcome h (headerOf ver hdr) (msgIdOf ver hdr) pay crc

end FrameRows

/-! ### The byte-step rows -/

section ByteRows

variable {s : State}

/-- A byte stored in an array, registers written after it: an access outside the array faults. -/
theorem memWrite_outcome {b : BufId} {i : Nat} {v : Byte} {f : Fault} {k : State → Res}
    (hk : ∀ u : State, u.mailboxView = s.mailboxView → InputOutcome s (k u)) :
    InputOutcome s (match s.memWrite b i v with | none => .fault f | some u => k u) := by
  cases hw : s.memWrite b i v with
  | none => exact .fault f
  | some u => exact hk u (mailboxView_memWrite hw)

theorem execTxtByte_outcome (b : Byte) : InputOutcome s (execTxtByte b s) :=
  .ite (.ite (memWrite_outcome fun _ hu => .kept hu) (.kept rfl)) (.kept rfl)

theorem execTxtLf_outcome : InputOutcome s (execTxtLf s) := by
  refine .ite (.ite (raiseReject_outcome rfl .text .txtLineTooLong) ?_) (.kept rfl)
  have hempty : (s.setTxt { s.txt with idx := 0 }).mailboxView = s.mailboxView := rfl
  split
  · exact .fault _
  · dsimp only
    split
    next code _ => exact raiseReject_outcome hempty .text code
    next k operand _ => exact runLine_eq k operand _ ▸ textRow_outcome hempty k operand

theorem execCrsfSync_outcome (b : Byte) : InputOutcome s (execCrsfSync b s) := .ite (.kept rfl) (.kept rfl)

theorem execCrsfLen_outcome (b : Byte) : InputOutcome s (execCrsfLen b s) :=
  .ite (.ite (raiseReject_outcome rfl .crsf .crsfOverLength)
    (.ite (raiseReject_outcome rfl .crsf .crsfUnderLength) (.kept rfl))) (.kept rfl)

theorem execCrsfAcc_outcome (b : Byte) : InputOutcome s (execCrsfAcc b s) :=
  .ite (memWrite_outcome fun _ hu => .kept hu) (.kept rfl)

theorem execCrsfCrc_outcome (b : Byte) : InputOutcome s (execCrsfCrc b s) := by
  refine .ite ?_ (.kept rfl)
  split
  next body u _ hw =>
    have hu := mailboxView_memWrite hw
    exact .ite (runCrsfFrame_outcome (t := toScan .crsf u) hu _ _) (raiseReject_outcome hu .crsf .crsfCrcMismatch)
  · exact .fault _

theorem execMavSync1_outcome : InputOutcome s (execMavSync1 s) := .ite (.kept rfl) (.kept rfl)

theorem execMavSync2_outcome : InputOutcome s (execMavSync2 s) := .ite (.kept rfl) (.kept rfl)

theorem execMavLen_outcome (b : Byte) : InputOutcome s (execMavLen b s) := .ite (.kept rfl) (.kept rfl)

theorem execMavHdr_outcome (b : Byte) : InputOutcome s (execMavHdr b s) :=
  .ite (memWrite_outcome fun _ hu => .kept hu) (.kept rfl)

theorem execMavPay_outcome (b : Byte) : InputOutcome s (execMavPay b s) :=
  .ite (memWrite_outcome fun _ hu => .kept hu) (.kept rfl)

theorem execMavCrcLo_outcome (b : Byte) : InputOutcome s (execMavCrcLo b s) := .ite (.kept rfl) (.kept rfl)

theorem execMavCrcHi_outcome (b : Byte) : InputOutcome s (execMavCrcHi b s) := by
  refine .ite ?_ (.kept rfl)
  split
  · dsimp only
    split
    next code _ => exact raiseReject_outcome rfl .mavlink code
    · exact runMavFrame_outcome (s := s) (t := toScan .mavlink s) rfl _ _ _ _ _
  · exact .fault _
  · exact .fault _

end ByteRows

/-- Every row of every parser keeps what the tasks share, publishes, or faults. -/
theorem exec_parserRow_outcome {i : Instr} {p : Protocol} (hi : parserOf i = some p) (s : State) : InputOutcome s (exec i s) := by
  match i, p, hi with
  | .txtG rest, _, rfl => exact textRow_outcome rfl .full rest
  | .txtUB val, _, rfl => exact textRow_outcome rfl .b val
  | .txtULX val, _, rfl => exact textRow_outcome rfl .lx val
  | .txtULY val, _, rfl => exact textRow_outcome rfl .ly val
  | .txtURX val, _, rfl => exact textRow_outcome rfl .rx val
  | .txtURY val, _, rfl => exact textRow_outcome rfl .ry val
  | .txtULT val, _, rfl => exact textRow_outcome rfl .lt val
  | .txtURT val, _, rfl => exact textRow_outcome rfl .rt val
  | .txtByte b, _, rfl => exact execTxtByte_outcome b
  | .txtLf, _, rfl => exact execTxtLf_outcome
  | .crsfSync b, _, rfl => exact execCrsfSync_outcome b
  | .crsfSkip _, _, rfl => exact .kept rfl
  | .crsfLen b, _, rfl => exact execCrsfLen_outcome b
  | .crsfAcc b, _, rfl => exact execCrsfAcc_outcome b
  | .crsfCrc b, _, rfl => exact execCrsfCrc_outcome b
  | .crsfRc payload, _, rfl => exact execCrsfRc_outcome rfl payload
  | .crsfTelem type payload, _, rfl => exact execCrsfTelem_outcome rfl type payload
  | .crsfUnknown type payload, _, rfl => exact execCrsfUnknown_outcome rfl type payload
  | .mavSync1, _, rfl => exact execMavSync1_outcome
  | .mavSync2, _, rfl => exact execMavSync2_outcome
  | .mavSkip _, _, rfl => exact .kept rfl
  | .mavLen b, _, rfl => exact execMavLen_outcome b
  | .mavHdr b, _, rfl => exact execMavHdr_outcome b
  | .mavPay b, _, rfl => exact execMavPay_outcome b
  | .mavCrcLo b, _, rfl => exact execMavCrcLo_outcome b
  | .mavCrcHi b, _, rfl => exact execMavCrcHi_outcome b
  | .mavHeartbeat hd payload, _, rfl => exact execMavHeartbeat_outcome rfl hd payload
  | .mavManualControl hd payload, _, rfl => exact execMavManualControl_outcome rfl hd payload
  | .mavUnknown hd id payload crc, _, rfl => exact execMavUnknown_outcome rfl hd id payload crc

end Sys2Proof.Machine
end

section
/-! The two tasks and the mailbox (family 20_memory; 20 R69, 45 R306 to R311): what each row of a task can do. -/

namespace Sys2Proof.Machine

/-! ### The input task -/

/-- The rows of the input task (45 R305, R306). -/
def InputRow (i : Instr) : Prop := (∃ b, i = .inRx b) ∨ i = .inRxErr

theorem exec_inputRow_outcome {i : Instr} (hi : InputRow i) (s : State) : InputOutcome s (exec i s) := by
  obtain ⟨b, rfl⟩ | rfl := hi
  · exact exec_inRx b s ▸ exec_parserRow_outcome (parserOf_byteInstr s.cfg (byteCtx s) b) s
  · exact .kept rfl

/-- The input task leaves the output task alone and never clears has_new: it overwrites the mailbox or does not touch it. -/
theorem InputOutcome.out_hasNew {s t : State} (h : InputOutcome s (.next t)) :
    t.out = s.out ∧ (s.mbox.hasNew = true → t.mbox.hasNew = true) := by
  cases h with
  | kept hview =>
    obtain ⟨hmbox, hout, -, -⟩ := MailboxView.mk.inj hview
    exact ⟨hout, fun hnew => hmbox ▸ hnew⟩
  | published g hview =>
    obtain ⟨hmbox, hout, -, -⟩ := MailboxView.mk.inj hview
    exact ⟨hout, fun _ => hmbox ▸ rfl⟩

/-! ### The output task -/

/-- The rows of the output task (45 R307 to R310). -/
def OutputRow (i : Instr) : Prop := i = .outWake ∨ i = .outReady ∨ ∃ ok, i = .outDone ok

/-- Everything a row of the output task can do. -/
inductive OutputStep (s : State) : State → Prop
  | hold : OutputStep s s
  | wake (hst : s.out.st = .waitValue) (hnew : s.mbox.hasNew = true) : OutputStep s (s.setOut { s.out with st := .waitReady })
  | ready (hst : s.out.st = .waitReady) : OutputStep s ((take s).setOut ⟨.sending, s.mbox.cell⟩)
  | sent (hst : s.out.st = .sending) : OutputStep s (s.setOut { s.out with st := .waitValue })
  | failed (hst : s.out.st = .sending) : OutputStep s (pulseFaultOut (s.setOut { s.out with st := .waitValue }))

theorem wakeEnabled_eq_true {s : State} : wakeEnabled s = true ↔ s.out.st = .waitValue ∧ s.mbox.hasNew = true := by
  simp [wakeEnabled]

/-- At readiness: the newest value is taken and latched in WaitReady, else nothing (45 R308). -/
theorem execOutReady_eq (s : State) :
    exec .outReady s = .next (if s.out.st = .waitReady then (take s).setOut ⟨.sending, s.mbox.cell⟩ else s) := by
  simp only [exec, execOutReady]
  split <;> rfl

/-- At the end of a send: back to WaitValue, with a pulse when it failed; nothing in any other state (45 R309, R310). -/
theorem execOutDone_eq (ok : Bool) (s : State) :
    exec (.outDone ok) s = .next (if s.out.st = .sending then
      (if ok then s.setOut { s.out with st := .waitValue } else pulseFaultOut (s.setOut { s.out with st := .waitValue })) else s) := by
  simp only [exec, execOutDone]
  split <;> rfl

theorem exec_outputRow {i : Instr} (hi : OutputRow i) (s : State) : ∃ t, exec i s = .next t ∧ OutputStep s t := by
  obtain rfl | rfl | ⟨ok, rfl⟩ := hi
  · refine ⟨_, execOutWake_eq s, ?_⟩
    split
    next hwake =>
      obtain ⟨hst, hnew⟩ := wakeEnabled_eq_true.1 hwake
      exact .wake hst hnew
    · exact .hold
  · refine ⟨_, execOutReady_eq s, ?_⟩
    split
    next hst => exact .ready hst
    · exact .hold
  · refine ⟨_, execOutDone_eq ok s, ?_⟩
    split
    next hst =>
      cases ok with
      | true => exact .sent hst
      | false => exact .failed hst
    · exact .hold

/-- The output task leaves every parser and the cell alone and never sets has_new. -/
theorem OutputStep.frame {s t : State} (h : OutputStep s t) :
    t.txt = s.txt ∧ t.crsf = s.crsf ∧ t.mav = s.mav ∧ t.mbox.cell = s.mbox.cell ∧
      (t.mbox.hasNew = true → s.mbox.hasNew = true) := by
  cases h with
  | hold | wake | sent | failed => exact ⟨rfl, rfl, rfl, rfl, id⟩
  | ready => exact ⟨rfl, rfl, rfl, rfl, nofun⟩

/-! ### The registers of the parsers, replaced -/

/-- The state with these parser registers. -/
def State.withParsers (s : State) (x : TxtRegs) (y : CrsfRegs) (z : MavRegs) : State := { s with txt := x, crsf := y, mav := z }

@[simp] theorem State.withParsers_out (s : State) (x : TxtRegs) (y : CrsfRegs) (z : MavRegs) :
    (s.withParsers x y z).out = s.out := rfl

@[simp] theorem wakeEnabled_withParsers (s : State) (x : TxtRegs) (y : CrsfRegs) (z : MavRegs) :
    wakeEnabled (s.withParsers x y z) = wakeEnabled s := rfl

/-- A row of the output task reads no parser register. -/
theorem exec_outputRow_withParsers {i : Instr} (hi : OutputRow i) {s t : State} (h : exec i s = .next t) (x : TxtRegs)
    (y : CrsfRegs) (z : MavRegs) : exec i (s.withParsers x y z) = .next (t.withParsers x y z) := by
  obtain rfl | rfl | ⟨ok, rfl⟩ := hi
  · obtain rfl := Host.Outcome.next.inj ((execOutWake_eq s).symm.trans h)
    rw [execOutWake_eq, wakeEnabled_withParsers]
    split <;> rfl
  · obtain rfl := Host.Outcome.next.inj ((execOutReady_eq s).symm.trans h)
    rw [execOutReady_eq, State.withParsers_out]
    split <;> rfl
  · obtain rfl := Host.Outcome.next.inj ((execOutDone_eq ok s).symm.trans h)
    rw [execOutDone_eq, State.withParsers_out]
    split
    · cases ok <;> rfl
    · rfl

/-- Settles O56: by what each row of a task can do, and by what a row of the output task reads. -/
theorem mailboxIsTheOnlySharedState : Obligations.MailboxIsTheOnlySharedState := by
  intro s t i hnext
  refine ⟨fun hi => ?_, fun hi => ?_⟩
  · exact InputOutcome.out_hasNew (hnext ▸ exec_inputRow_outcome hi s)
  · obtain ⟨u, hu, hstep⟩ := exec_outputRow hi s
    obtain rfl : u = t := Host.Outcome.next.inj (hu.symm.trans hnext)
    obtain ⟨htxt, hcrsf, hmav, hcell, hnew⟩ := hstep.frame
    exact ⟨htxt, hcrsf, hmav, hcell, hnew, exec_outputRow_withParsers hi hnext⟩

end Sys2Proof.Machine
end

section
/-! Steps and runs (family 20_memory; 20 R61, R68; 45 R304, R313): what a step runs, that it keeps the invariant, and that what is
taken from the mailbox is what was published. -/

namespace Sys2Proof.Machine

/-! ### The instruction of a single event (30 R108) -/

theorem decode_rxCode (c : Config) (b : Byte) : decode c (rxCode b) = .ok (.inRx b) := by
  have hbyte : byteOf (b.setWidth 96) 0 = b := by
    apply BitVec.eq_of_toNat_eq
    simp [byteOf]
    omega
  simp [decode, decodePort, rxCode, hbyte]

theorem decode_doneCode (c : Config) (ok : Bool) : decode c (doneCode ok) = .ok (.outDone ok) := by
  cases ok <;> rfl

theorem runEvent_rxByte (b : Byte) (s : State) : runEvent (.rxByte b) s = exec (.inRx b) s := runCode_ok (decode_rxCode s.cfg b)

theorem runEvent_sendDone (ok : Bool) (s : State) : runEvent (.sendDone ok) s = exec (.outDone ok) s :=
  runCode_ok (decode_doneCode s.cfg ok)

/-! ### Instructions one after the other -/

theorem execAll_singleton (i : Instr) (s : State) : execAll [i] s = exec i s := by
  cases h : exec i s <;> simp [execAll, h]

/-- What holds at the start of a sequence and is kept by each of its rows, all of which go on, holds at its end. -/
theorem execAll_induction {P : State → Prop} {is : List Instr} (hstep : ∀ i ∈ is, ∀ s, P s → ∃ t, exec i s = .next t ∧ P t)
    {s : State} (hs : P s) : ∃ t, execAll is s = .next t ∧ P t := by
  induction is generalizing s with
  | nil => exact ⟨s, rfl, hs⟩
  | cons i is ih =>
    obtain ⟨u, hu, hPu⟩ := hstep i List.mem_cons_self s hs
    rw [execAll_cons i is s u hu]
    exact ih (fun j hj => hstep j (List.mem_cons_of_mem _ hj)) hPu

theorem execAll_append {os is : List Instr} {s u : State} (h : execAll os s = .next u) :
    execAll (os ++ is) s = execAll is u := by
  induction os generalizing s with
  | nil => cases h; rfl
  | cons i os ih =>
    cases hi : exec i s with
    | next v =>
      rw [execAll_cons i os s v hi] at h
      rw [List.cons_append, execAll_cons i (os ++ is) s v hi, ih h]
    | fault f => simp [execAll, hi] at h
    | refused r => simp [execAll, hi] at h

/-! ### What a step runs -/

theorem eq_of_mem_ite {p : Prop} [Decidable p] {i j : Instr} (h : i ∈ if p then [j] else []) : i = j :=
  List.mem_singleton.1 (List.mem_ite_nil_right.1 h).2

theorem inInstrs_inputRow {p : PortIn} {i : Instr} (hi : i ∈ inInstrs p) : InputRow i := by
  rcases List.mem_append.1 hi with hrx | hrxErr
  · exact .inl ⟨_, eq_of_mem_ite hrx⟩
  · exact .inr (eq_of_mem_ite hrxErr)

theorem outInstrs_outputRow {p : PortIn} {s : State} {i : Instr} (hi : i ∈ outInstrs p s) : OutputRow i := by
  unfold outInstrs at hi
  split at hi
  · exact .inl (eq_of_mem_ite hi)
  · exact .inr (.inl (eq_of_mem_ite hi))
  · exact .inr (.inr ⟨_, eq_of_mem_ite hi⟩)

/-- Everything a step can run on the state that took the event: reset, or rows of the output task and then rows of the input task
(45 R304, 60 R348). -/
inductive Runs (s : State) : Res → Prop
  | reset : Runs s (.next (applyReset s))
  | rows {os is : List Instr} (hos : ∀ i ∈ os, OutputRow i) (his : ∀ i ∈ is, InputRow i) : Runs s (execAll (os ++ is) s)

theorem Runs.inputRow {i : Instr} (hi : InputRow i) (s : State) : Runs s (exec i s) :=
  execAll_singleton i s ▸ .rows (os := []) nofun (by simpa using hi)

theorem Runs.outputRow {i : Instr} (hi : OutputRow i) (s : State) : Runs s (exec i s) :=
  execAll_singleton i s ▸ .rows (os := [i]) (is := []) (by simpa using hi) nofun

theorem runCycle_runs (p : PortIn) (s : State) : Runs s (runCycle p s) := by
  unfold runCycle
  split
  · exact .reset
  · exact .rows (fun _ => outInstrs_outputRow) (fun _ => inInstrs_inputRow)

theorem runEvent_runs (e : Event) (s : State) : Runs s (runEvent e s) := by
  cases e with
  | reset => exact .reset
  | cycle p => exact runCycle_runs p s
  | rxByte b => exact runEvent_rxByte b s ▸ .inputRow (.inl ⟨b, rfl⟩) s
  | rxError => exact .inputRow (.inr rfl) s
  | wake => exact .outputRow (.inl rfl) s
  | ready => exact .outputRow (.inr (.inl rfl)) s
  | sendDone ok => exact runEvent_sendDone ok s ▸ .outputRow (.inr (.inr ⟨ok, rfl⟩)) s

theorem step_runs (s : State) : ∃ rest, Runs (accept rest s) (step s) := by
  cases hinbox : s.inbox with
  | nil => exact ⟨[], step_nil hinbox ▸ .outputRow (.inl rfl) _⟩
  | cons e rest => exact ⟨rest, step_cons hinbox ▸ runEvent_runs e _⟩

/-! ### The invariant -/

theorem accept_inv {s : State} (h : s.Inv) (rest : List Event) : (accept rest s).Inv := { h with }

theorem applyReset_inv {s : State} (h : s.Inv) : (applyReset s).Inv := { resetWith_inv h.cfg with }

/-- The output task waits for the sink only once it has seen has_new, and leaves WaitReady when it clears it (45 R308). -/
theorem OutputStep.inv {s t : State} (h : OutputStep s t) (hs : s.Inv) : t.Inv := by
  cases h with
  | hold => exact hs
  | wake _ hnew => exact { hs with out := fun _ => hnew }
  | ready | sent | failed => exact { hs with out := nofun }

/-- A row of the input task goes on, with the invariant, and keeps what the tasks share or publishes. -/
theorem exec_inputRow_goesOn {i : Instr} (hi : InputRow i) {s : State} (hs : s.Inv) :
    ∃ t, exec i s = .next t ∧ t.Inv ∧ InputOutcome s (.next t) := by
  have hout := exec_inputRow_outcome hi s
  obtain ⟨b, rfl⟩ | rfl := hi
  · obtain ⟨t, hnext, hinv, -, -, -⟩ := receivedByteCompletes b s hs
    exact ⟨t, hnext, hinv, hnext ▸ hout⟩
  · exact ⟨_, rfl, { hs with }, hout⟩

/-! ### The account of the mailbox over one step -/

/-- The value that waits in the mailbox. -/
def waiting (s : State) : List GamepadState := if s.mbox.hasNew then [s.mbox.cell] else []

/-- What the output side of a step, which began with the values `w` waiting, has done so far: nothing is published, and what was taken
and what still waits comes from `w`. -/
structure OutputAccount (w : List GamepadState) (s : State) : Prop where
  inv : s.Inv
  publish : s.pulses.publish = none
  taken : (s.pulses.take.toList ++ waiting s).Sublist w

/-- The same with the input side: what still waits may also be what this step published, but not what it took. -/
structure StepAccount (w : List GamepadState) (s : State) : Prop where
  inv : s.Inv
  take : s.pulses.take.toList.Sublist w
  taken : (s.pulses.take.toList ++ waiting s).Sublist (w ++ s.pulses.publish.toList)

theorem accept_account {s : State} (h : s.Inv) (rest : List Event) : OutputAccount (waiting s) (accept rest s) where
  inv := accept_inv h rest
  publish := rfl
  taken := List.Sublist.refl _

/-- A take moves the waiting value to the taken ones: at readiness it is there, by the invariant (45 R308). -/
theorem OutputAccount.outputStep {w : List GamepadState} {s t : State} (h : OutputAccount w s) (hstep : OutputStep s t) :
    OutputAccount w t := by
  refine ⟨hstep.inv h.inv, ?_, ?_⟩
  · cases hstep with
    | hold | wake | ready | sent | failed => exact h.publish
  · cases hstep with
    | hold | wake | sent | failed => exact h.taken
    | ready hst =>
      have hwaits : [s.mbox.cell] = waiting s := (if_pos (h.inv.out hst)).symm
      calc [s.mbox.cell]
        _ = waiting s := hwaits
        List.Sublist _ (s.pulses.take.toList ++ waiting s) := List.sublist_append_right _ _
        List.Sublist _ w := h.taken

theorem OutputAccount.stepAccount {w : List GamepadState} {s : State} (h : OutputAccount w s) : StepAccount w s where
  inv := h.inv
  take := (List.sublist_append_left _ _).trans h.taken
  taken := h.taken.trans (List.sublist_append_left _ _)

/-- A publish replaces what waits by the published value. -/
theorem StepAccount.inputOutcome {w : List GamepadState} {s t : State} (h : StepAccount w s) (hinv : t.Inv)
    (hout : InputOutcome s (.next t)) : StepAccount w t := by
  cases hout with
  | kept hview =>
    obtain ⟨hmbox, -, hpub, htake⟩ := MailboxView.mk.inj hview
    have hwaits : waiting t = waiting s := by rw [waiting, hmbox, waiting]
    refine ⟨hinv, ?_, ?_⟩
    · rw [htake]; exact h.take
    · rw [htake, hpub, hwaits]; exact h.taken
  | published g hview =>
    obtain ⟨hmbox, -, hpub, htake⟩ := MailboxView.mk.inj hview
    have hwaits : waiting t = [g] := by rw [waiting, hmbox]; rfl
    refine ⟨hinv, ?_, ?_⟩
    · rw [htake]; exact h.take
    · rw [htake, hpub, hwaits]; exact h.take.append_right _

/-- Rows of the output task and then rows of the input task go on, and the account is kept. -/
theorem execAll_account {w : List GamepadState} {s : State} {os is : List Instr} (h : OutputAccount w s)
    (hos : ∀ i ∈ os, OutputRow i) (his : ∀ i ∈ is, InputRow i) : ∃ t, execAll (os ++ is) s = .next t ∧ StepAccount w t := by
  have houtput : ∀ i ∈ os, ∀ s, OutputAccount w s → ∃ t, exec i s = .next t ∧ OutputAccount w t := by
    intro i hi s hs
    obtain ⟨t, hnext, hstep⟩ := exec_outputRow (hos i hi) s
    exact ⟨t, hnext, hs.outputStep hstep⟩
  have hinput : ∀ i ∈ is, ∀ s, StepAccount w s → ∃ t, exec i s = .next t ∧ StepAccount w t := by
    intro i hi s hs
    obtain ⟨t, hnext, hinv, hout⟩ := exec_inputRow_goesOn (his i hi) hs.inv
    exact ⟨t, hnext, hs.inputOutcome hinv hout⟩
  obtain ⟨u, hu, hmid⟩ := execAll_induction houtput h
  rw [execAll_append hu]
  exact execAll_induction hinput hmid.stepAccount

/-- Reset takes nothing and empties the mailbox. -/
theorem applyReset_account {s : State} (h : s.Inv) (w : List GamepadState) : StepAccount w (applyReset s) where
  inv := applyReset_inv h
  take := List.nil_sublist _
  taken := List.nil_sublist _

/-- Every step goes on, and its account starts from what waits in the mailbox. -/
theorem step_account {s : State} (h : s.Inv) : ∃ t, step s = .next t ∧ StepAccount (waiting s) t := by
  obtain ⟨rest, hruns⟩ := step_runs s
  have hstart := accept_account h rest
  generalize step s = r at hruns ⊢
  cases hruns with
  | reset => exact ⟨_, rfl, applyReset_account hstart.inv _⟩
  | rows hos his => exact execAll_account hstart hos his

/-- Settles O8: the rows a step runs go on and keep the invariant, and so does reset. -/
theorem everyStepKeepsTheInvariant : Obligations.EveryStepKeepsTheInvariant := by
  intro s h
  obtain ⟨t, hnext, hacc⟩ := step_account h
  exact ⟨t, hnext, hacc.inv⟩

/-! ### Runs -/

theorem taken_succ {s t : State} (h : step s = .next t) (k : Nat) : taken (k + 1) s = t.pulses.take.toList ++ taken k t := by
  simp [taken, h]

theorem published_succ {s t : State} (h : step s = .next t) (k : Nat) :
    published (k + 1) s = t.pulses.publish.toList ++ published k t := by
  simp [published, h]

/-- Settles O59: by induction on the number of steps, each of which hands the value that waits on to the next. -/
theorem takenValuesAreASublistOfPublished : Obligations.TakenValuesAreASublistOfPublished := by
  intro k
  change ∀ s : State, s.Inv → (taken k s).Sublist (waiting s ++ published k s)
  induction k with
  | zero => exact fun _ _ => List.nil_sublist _
  | succ k ih =>
    intro s h
    obtain ⟨t, hnext, hacc⟩ := step_account h
    rw [taken_succ hnext, published_succ hnext, ← List.append_assoc]
    calc t.pulses.take.toList ++ taken k t
      List.Sublist _ (t.pulses.take.toList ++ (waiting t ++ published k t)) := (ih t hacc.inv).append_left _
      _ = t.pulses.take.toList ++ waiting t ++ published k t := (List.append_assoc ..).symm
      List.Sublist _ (waiting s ++ t.pulses.publish.toList ++ published k t) := hacc.taken.append_right _

end Sys2Proof.Machine
end

section
/-! The four encodings and their decoder (family 30_encoding; 30 R91 to R111): a line, a CRSF frame, a MAVLink frame and a strobe are
each decoded to what they were made from. -/

namespace Sys2Proof.Machine

/-! ### Bytes of a sequence -/

theorem byteAt_append_right (l r : List Byte) (k : Nat) : byteAt (l ++ r) (l.length + k) = byteAt r k := by
  simp [byteAt, List.getElem?_append_right]

/-! ### Text lines (30 R101 to R105) -/

theorem hexVal_hexDigit {n : Nat} (h : n < 16) : hexVal (hexDigit n) = some n := by
  revert n
  decide

theorem lineOf_eq (body : List Byte) :
    lineOf body = body ++ [chStar, hexDigit ((xor8 body).toNat / 16), hexDigit ((xor8 body).toNat % 16), chLf] := by
  simp [lineOf, hex2]

/-- A line made from its body passes the terminator, star and checksum checks, so what is left is its body's split. -/
theorem splitLine_lineOf (body : List Byte) : splitLine (lineOf body) = splitBody body := by
  have hlen := Laws.lineOf_length body
  have hat : ∀ k, byteAt (lineOf body) (body.length + k) =
      byteAt [chStar, hexDigit ((xor8 body).toNat / 16), hexDigit ((xor8 body).toNat % 16), chLf] k := fun k => by
    rw [lineOf_eq, byteAt_append_right]
  have hstar : byteAt (lineOf body) body.length = chStar := hat 0
  have hhigh : hexVal (byteAt (lineOf body) (body.length + 1)) = some ((xor8 body).toNat / 16) :=
    (congrArg hexVal (hat 1)).trans (hexVal_hexDigit (by omega))
  have hlow : hexVal (byteAt (lineOf body) (body.length + 2)) = some ((xor8 body).toNat % 16) :=
    (congrArg hexVal (hat 2)).trans (hexVal_hexDigit (by omega))
  have hlf : byteAt (lineOf body) (body.length + 3) = chLf := hat 3
  have hbody : (lineOf body).take body.length = body := by rw [lineOf_eq, List.take_left]
  have hsum : BitVec.ofNat 8 (16 * ((xor8 body).toNat / 16) + (xor8 body).toNat % 16) = xor8 body := by
    rw [Nat.div_add_mod, BitVec.ofNat_toNat, BitVec.setWidth_eq]
  simp [splitLine, hlen, hstar, hhigh, hlow, hlf, hbody, hsum]

/-- A field code holds no colon, so the first colon is the one after it. -/
theorem breakColon_fieldCode (k : LineKind) (val : List Byte) :
    breakColon (fieldCode k ++ chColon :: val) = some (fieldCode k, val) := by
  cases k <;> rfl

theorem kindOfCode_fieldCode {k : LineKind} (h : k ≠ .full) : kindOfCode (fieldCode k) = some k := by
  cases k with
  | full => exact absurd rfl h
  | b | lx | ly | rx | ry | lt | rt => rfl

theorem splitBody_updateBody {k : LineKind} (h : k ≠ .full) (val : List Byte) : splitBody (updateBody k val) = .ok (k, val) := by
  have hrest : updateBody k val = chU :: (fieldCode k ++ chColon :: val) := by simp [updateBody]
  have htag : chU ≠ chG := by decide
  simp [hrest, splitBody, htag, breakColon_fieldCode, kindOfCode_fieldCode h]

theorem decodeLine_full (rest : List Byte) : decodeLine (lineOf (chG :: rest)) = .ok (.txtG rest) := by
  rw [decodeLine, splitLine_lineOf]
  rfl

theorem decodeLine_update {k : LineKind} (h : k ≠ .full) (val : List Byte) :
    decodeLine (lineOf (updateBody k val)) = .ok (lineInstr k val) := by
  rw [decodeLine, splitLine_lineOf, splitBody_updateBody h]

/-! ### CRSF frames (30 R91 to R93) -/

theorem wfCrsfPayload_iff {c : Config} {payload : List Byte} :
    wfCrsfPayload c payload = true ↔ payload.length + 2 ≤ c.crsfMaxLen ∧ payload.length + 2 ≤ 255 := by
  simp [wfCrsfPayload]

theorem toNat_ofNat_of_le {n : Nat} (h : n ≤ 255) : (BitVec.ofNat 8 n).toNat = n := by
  rw [BitVec.toNat_ofNat, Nat.mod_eq_of_lt (by omega)]

/-- A frame of legal length with its CRC is decoded to the row its type byte selects. -/
theorem decodeCrsf_crsfFrameOf {c : Config} {sync : Byte} {payload : List Byte} (hsync : sync ∈ c.crsfSync)
    (hwf : wfCrsfPayload c payload = true) (type : Byte) :
    decodeCrsf c (crsfFrameOf sync type payload) = .ok (crsfInstr c type payload) := by
  obtain ⟨hmax, h255⟩ := wfCrsfPayload_iff.1 hwf
  have hlen := toNat_ofNat_of_le h255
  have hframe : crsfFrameOf sync type payload =
      sync :: BitVec.ofNat 8 (payload.length + 2) :: ((type :: payload) ++ [crc8 (type :: payload)]) := by simp [crsfFrameOf]
  have hcrc : byteAt ((type :: payload) ++ [crc8 (type :: payload)]) (payload.length + 1) = crc8 (type :: payload) :=
    byteAt_append_right (type :: payload) [crc8 (type :: payload)] 0
  have hbody : ((type :: payload) ++ [crc8 (type :: payload)]).take (payload.length + 1) = type :: payload :=
    List.take_left' rfl
  have htype : byteAt ((type :: payload) ++ [crc8 (type :: payload)]) 0 = type := rfl
  have hover : ¬ c.crsfMaxLen < payload.length + 2 := by omega
  rw [hframe]
  generalize hb : (type :: payload) ++ [crc8 (type :: payload)] = body at hcrc hbody htype
  have hblen : body.length = payload.length + 2 := by simp [← hb]
  simp [decodeCrsf, hsync, hlen, hover, hblen, hcrc, hbody, htype]

theorem byteAt_zero_mem {l : List Byte} (h : l ≠ []) : byteAt l 0 ∈ l := by
  cases l with
  | nil => exact absurd rfl h
  | cons b l => exact List.mem_cons_self

theorem crsfClassify_rc (c : Config) : crsfClassify c c.crsfTypeRc = .rc := if_pos rfl

/-! ### MAVLink frames (30 R95 to R98) -/

theorem headerOf_headerBytes (h : MavHeader) (id : MsgId) : headerOf (headerVer h) (headerBytes h id) = h := by
  obtain ⟨flags, seq, sysid, compid⟩ := h
  cases flags <;> rfl

theorem wfMav_iff {h : MavHeader} {id : MsgId} {payload : List Byte} :
    wfMav h id payload = true ↔ payload.length ≤ 255 ∧ (h.flags.isSome = true ∨ id.toNat < 256) := by
  simp [wfMav]

theorem setWidth_byteOf_zero {id : MsgId} (h : id.toNat < 256) : (byteOf id 0).setWidth 24 = id := by
  apply BitVec.eq_of_toNat_eq
  simp [byteOf]
  omega

theorem le24_byteOf (id : MsgId) : le24 (byteOf id 0) (byteOf id 1) (byteOf id 2) = id := by
  apply BitVec.eq_of_toNat_eq
  simp only [le24, toNat_append_eq_add, byteOf, BitVec.extractLsb'_toNat, Nat.shiftRight_eq_div_pow]
  omega

theorem le16_byteOf (crc : Half) : le16 (byteOf crc 0) (byteOf crc 1) = crc := by
  apply BitVec.eq_of_toNat_eq
  simp only [le16, toNat_append_eq_add, byteOf, BitVec.extractLsb'_toNat, Nat.shiftRight_eq_div_pow]
  omega

theorem msgIdOf_headerBytes {h : MavHeader} {id : MsgId} (hid : h.flags.isSome = true ∨ id.toNat < 256) :
    msgIdOf (headerVer h) (headerBytes h id) = id := by
  obtain ⟨flags, seq, sysid, compid⟩ := h
  cases flags with
  | none => exact setWidth_byteOf_zero (hid.resolve_left Bool.false_ne_true)
  | some flags => exact le24_byteOf id

/-- Header, payload and CRC of a frame are found where they were put; what the frame is, is left to its class. -/
theorem decodeMavBody_frame {c : Config} {ver : MavVer} {hdr pay : List Byte} {lo hi : Byte} {cls : MavClass}
    (hhdr : hdr.length = hlen ver) (hpay : pay.length ≤ 255)
    (hcls : mavClassify c ver (BitVec.ofNat 8 pay.length) hdr pay (le16 lo hi) = .ok cls) :
    decodeMavBody c ver (BitVec.ofNat 8 pay.length :: (hdr ++ (pay ++ [lo, hi]))) = .ok (mavInstr cls ver hdr pay (le16 lo hi)) := by
  have hn := toNat_ofNat_of_le hpay
  have hcrc : ∀ k, byteAt (hdr ++ (pay ++ [lo, hi])) (hlen ver + pay.length + k) = byteAt [lo, hi] k := fun k => by
    rw [← hhdr, add_assoc, byteAt_append_right, byteAt_append_right]
  have hlo : byteAt (hdr ++ (pay ++ [lo, hi])) (hlen ver + pay.length) = lo := hcrc 0
  have hhi : byteAt (hdr ++ (pay ++ [lo, hi])) (hlen ver + pay.length + 1) = hi := hcrc 1
  have htake : (hdr ++ (pay ++ [lo, hi])).take (hlen ver) = hdr := List.take_left' hhdr
  have hdrop : (hdr ++ (pay ++ [lo, hi])).drop (hlen ver) = pay ++ [lo, hi] := List.drop_left' hhdr
  have hlength : (hdr ++ (pay ++ [lo, hi])).length = hlen ver + pay.length + 2 := by simp [hhdr]; omega
  simp [decodeMavBody, hn, hlength, htake, hdrop, hlo, hhi, hcls, -List.length_append]

/-- A frame is decoded to the row of its class, with its header, id, payload and CRC. -/
theorem decodeMav_mavFrameOf {c : Config} {h : MavHeader} {id : MsgId} {payload : List Byte} {crc : Half} {cls : MavClass}
    (hpay : payload.length ≤ 255)
    (hcls : mavClassify c (headerVer h) (BitVec.ofNat 8 payload.length) (headerBytes h id) payload crc = .ok cls) :
    decodeMav c (mavFrameOf h id payload crc) = .ok (mavInstr cls (headerVer h) (headerBytes h id) payload crc) := by
  have hbody := decodeMavBody_frame (lo := byteOf crc 0) (hi := byteOf crc 1) (Laws.headerBytes_length h id) hpay
    (by rwa [le16_byteOf])
  rw [le16_byteOf] at hbody
  have hframe : mavFrameOf h id payload crc = syncOf (headerVer h) :: BitVec.ofNat 8 payload.length ::
      (headerBytes h id ++ (payload ++ [byteOf crc 0, byteOf crc 1])) := by simp [mavFrameOf]
  rw [hframe, ← hbody]
  cases headerVer h <;> rfl

/-- The class of a frame whose id has no CRC-extra byte: ignored, whatever its CRC. -/
theorem mavClassify_unknown {c : Config} {ver : MavVer} {len : Byte} {hdr pay : List Byte} {crc : Half}
    (hextra : c.extra (msgIdOf ver hdr) = none) : mavClassify c ver len hdr pay crc = .ok .ignored := by
  simp [mavClassify, hextra]

/-- The class of a frame with a known id and the right CRC is that of its id. -/
theorem mavClassify_known {c : Config} {ver : MavVer} {len : Byte} {hdr pay : List Byte} {e : Byte}
    (hextra : c.extra (msgIdOf ver hdr) = some e) :
    mavClassify c ver len hdr pay (frameCrc c.mavCrcCoversLen len hdr pay e) =
      .ok (if msgIdOf ver hdr = 0 then .heartbeat else if msgIdOf ver hdr = 69 then .manualControl else .ignored) := by
  simp only [mavClassify, hextra, ne_eq, not_true_eq_false, if_false]
  split
  · rfl
  · split <;> rfl

theorem crcFor_eq {c : Config} {h : MavHeader} {id : MsgId} {payload : List Byte} {e : Byte} (hextra : c.extra id = some e) :
    crcFor c h id payload =
      frameCrc c.mavCrcCoversLen (BitVec.ofNat 8 payload.length) (headerBytes h id) payload e := by
  simp [crcFor, hextra]

/-- A frame made with the CRC of its id has the class of that id. -/
theorem mavClassify_crcFor {c : Config} {h : MavHeader} {id : MsgId} {payload : List Byte}
    (hid : h.flags.isSome = true ∨ id.toNat < 256) (hextra : (c.extra id).isSome = true) :
    mavClassify c (headerVer h) (BitVec.ofNat 8 payload.length) (headerBytes h id) payload (crcFor c h id payload) =
      .ok (if id = 0 then .heartbeat else if id = 69 then .manualControl else .ignored) := by
  obtain ⟨e, he⟩ := Option.isSome_iff_exists.1 hextra
  have hmsg := msgIdOf_headerBytes hid
  rw [crcFor_eq he, mavClassify_known (by rwa [hmsg]), hmsg]

/-- A frame made with the CRC of its known id is decoded to the row of that id's class. -/
theorem decodeMav_crcFor {c : Config} {h : MavHeader} {id : MsgId} {payload : List Byte} (hwf : wfMav h id payload = true)
    (hextra : (c.extra id).isSome = true) :
    decodeMav c (mavFrameOf h id payload (crcFor c h id payload)) =
      .ok (mavInstr (if id = 0 then .heartbeat else if id = 69 then .manualControl else .ignored) (headerVer h) (headerBytes h id)
        payload (crcFor c h id payload)) := by
  obtain ⟨hlen, hid⟩ := wfMav_iff.1 hwf
  exact decodeMav_mavFrameOf hlen (mavClassify_crcFor hid hextra)

/-- A well-formed frame of the row MAV.UNKNOWN is ignored: its id is unknown, or it is known, checked and not decoded. -/
theorem mavClassify_of_wf_unknown {c : Config} {h : MavHeader} {id : MsgId} {payload : List Byte} {crc : Half}
    (hwf : (Instr.mavUnknown h id payload crc).wf c = true) :
    mavClassify c (headerVer h) (BitVec.ofNat 8 payload.length) (headerBytes h id) payload crc = .ok .ignored := by
  simp only [Instr.wf, Bool.and_eq_true] at hwf
  obtain ⟨hmav, hcrc⟩ := hwf
  have hmsg := msgIdOf_headerBytes (wfMav_iff.1 hmav).2
  cases hextra : c.extra id with
  | none => exact mavClassify_unknown (by rwa [hmsg])
  | some e =>
    simp only [hextra, Bool.and_eq_true, bne_iff_ne, beq_iff_eq] at hcrc
    obtain ⟨⟨h0, h69⟩, rfl⟩ := hcrc
    rw [mavClassify_known (by rwa [hmsg]), hmsg, if_neg h0, if_neg h69]

/-! ### Strobes (30 R108) -/

theorem decode_mboxPublish (c : Config) (g : GamepadState) : decode c (encode c (.mboxPublish g)) = .ok (.mboxPublish g) := by
  change Except.ok (Instr.mboxPublish (ofBus (toBus g))) = _
  rw [ofBus_toBus]

/-- Settles O3: the code of a single event is what its row is encoded to. -/
theorem singleEventsDecodeToPortRows : Obligations.SingleEventsDecodeToPortRows := fun c b ok =>
  ⟨congrArg some (decode_rxCode c b), rfl, rfl, rfl, congrArg some (decode_doneCode c ok)⟩

/-! ### Every row (30 R111) -/

/-- Settles O1: each of the four encodings is decoded to what it was made from; a byte step, to the row its byte selects. -/
theorem decodeEncodeRoundTrip : Obligations.DecodeEncodeRoundTrip := by
  intro c i hc hi
  obtain ⟨-, -, -, -, hsync, -⟩ := hc
  have hfirst := byteAt_zero_mem hsync
  cases i with
  | txtG rest => exact decodeLine_full rest
  | txtUB val => exact decodeLine_update (k := .b) nofun val
  | txtULX val => exact decodeLine_update (k := .lx) nofun val
  | txtULY val => exact decodeLine_update (k := .ly) nofun val
  | txtURX val => exact decodeLine_update (k := .rx) nofun val
  | txtURY val => exact decodeLine_update (k := .ry) nofun val
  | txtULT val => exact decodeLine_update (k := .lt) nofun val
  | txtURT val => exact decodeLine_update (k := .rt) nofun val
  | txtByte b =>
    have hb : b ≠ chLf := by simpa [Instr.wf] using hi
    simp [encode, decode, byteInstr, hb]
  | crsfSync b =>
    have hb : b ∈ c.crsfSync := by simpa [Instr.wf] using hi
    simp [encode, decode, byteInstr, hb]
  | crsfSkip b =>
    have hb : b ∉ c.crsfSync := by simpa [Instr.wf] using hi
    simp [encode, decode, byteInstr, hb]
  | mavSkip b =>
    obtain ⟨h1, h2⟩ : b ≠ syncV1 ∧ b ≠ syncV2 := by simpa [Instr.wf] using hi
    simp [encode, decode, byteInstr, h1, h2]
  | txtLf | crsfLen b | crsfAcc b | crsfCrc b => rfl
  | mavSync1 | mavSync2 | mavLen b | mavHdr b | mavPay b | mavCrcLo b | mavCrcHi b => rfl
  | crsfRc payload =>
    rw [encode, decode, decodeCrsf_crsfFrameOf hfirst hi, crsfInstr, crsfClassify_rc]
  | crsfTelem type payload =>
    simp only [Instr.wf, Bool.and_eq_true, bne_iff_ne] at hi
    obtain ⟨⟨hwf, hrc⟩, htelem⟩ := hi
    rw [encode, decode, decodeCrsf_crsfFrameOf hfirst hwf, crsfInstr, crsfClassify, if_neg hrc, if_pos htelem]
  | crsfUnknown type payload =>
    simp only [Instr.wf, Bool.and_eq_true, bne_iff_ne, Bool.not_eq_true'] at hi
    obtain ⟨⟨hwf, hrc⟩, htelem⟩ := hi
    rw [encode, decode, decodeCrsf_crsfFrameOf hfirst hwf, crsfInstr, crsfClassify, if_neg hrc, if_neg (by simpa using htelem)]
  | mavHeartbeat h payload =>
    simp only [Instr.wf, Bool.and_eq_true] at hi
    rw [encode, decode, decodeMav_crcFor hi.1 hi.2, if_pos rfl, mavInstr, headerOf_headerBytes]
  | mavManualControl h payload =>
    simp only [Instr.wf, Bool.and_eq_true] at hi
    rw [encode, decode, decodeMav_crcFor hi.1 hi.2, if_neg (by decide), if_pos rfl, mavInstr, headerOf_headerBytes]
  | mavUnknown h id payload crc =>
    have hcls := mavClassify_of_wf_unknown hi
    simp only [Instr.wf, Bool.and_eq_true] at hi
    obtain ⟨hlen, hid⟩ := wfMav_iff.1 hi.1
    rw [encode, decode, decodeMav_mavFrameOf hlen hcls, mavInstr, headerOf_headerBytes, msgIdOf_headerBytes hid]
  | mboxPublish g => exact decode_mboxPublish c g
  | inRx b => exact decode_rxCode c b
  | outDone ok => exact decode_doneCode c ok
  | mboxTake | inRxErr | outWake | outReady => rfl

/-! ### The packed channels, byte by byte (30 R94) -/

theorem byteAt_drop (p : List Byte) (m k : Nat) : byteAt (p.drop m) k = byteAt p (m + k) := by
  simp [byteAt]

theorem leNat_eq (p : List Byte) : leNat p = (byteAt p 0).toNat + 256 * leNat (p.drop 1) := by
  cases p <;> rfl

theorem leNat_div (p : List Byte) (m : Nat) : leNat p / (2 ^ 8) ^ m = leNat (p.drop m) := by
  induction m generalizing p with
  | zero => simp
  | succ m ih =>
    have hfirst : leNat p / 2 ^ 8 = leNat (p.drop 1) := by
      have := leNat_eq p
      omega
    rw [pow_succ', ← Nat.div_div_eq_div_mul, hfirst, ih, List.drop_drop, add_comm]

/-- The three bytes from index m on are the low digits of what is left after m bytes. -/
theorem leNat_drop_eq (p : List Byte) (m : Nat) :
    leNat (p.drop m) = (byteAt p m).toNat + 256 * (byteAt p (m + 1)).toNat + 65536 * (byteAt p (m + 2)).toNat +
      2 ^ 24 * leNat (p.drop (m + 3)) := by
  have h0 := leNat_eq (p.drop m)
  have h1 := leNat_eq (p.drop (m + 1))
  have h2 := leNat_eq (p.drop (m + 2))
  simp only [byteAt_drop, List.drop_drop, add_zero, add_assoc, Nat.reduceAdd] at h0 h1 h2
  omega

theorem toNat_unpack {p : List Byte} {i : Nat} (h : i < 16) :
    ((unpack p).toList.getD i 0).toNat = leNat p / 2 ^ (11 * i) % 2048 := by
  simp [unpack, h, Nat.shiftRight_eq_div_pow]

/-- Eleven bits that start in the lowest byte do not reach the fourth. -/
theorem low_lane_eq {x y r : Nat} (hr : r ≤ 7) : (x + 2 ^ 24 * y) / 2 ^ r % 2048 = x / 2 ^ r % 2048 := by
  interval_cases r <;> omega

/-- A lane that starts r bits into byte m is what that byte and the two after it hold from there on. -/
theorem toNat_unpack_of_start {p : List Byte} {i m r : Nat} (h : i < 16) (hr : r ≤ 7) (hstart : 11 * i = 8 * m + r) :
    ((unpack p).toList.getD i 0).toNat =
      ((byteAt p m).toNat + 256 * (byteAt p (m + 1)).toNat + 65536 * (byteAt p (m + 2)).toNat) / 2 ^ r % 2048 := by
  rw [toNat_unpack h, hstart, pow_add, ← Nat.div_div_eq_div_mul, pow_mul, leNat_div, leNat_drop_eq, low_lane_eq hr]

/-- Settles O36: each lane's bits, cut out of the three bytes from the one it starts in. -/
theorem channelsByteByByte : Obligations.ChannelsByteByByte := by
  intro p j _ hj q ch
  have lane : ∀ k m r, k < 8 → r ≤ 7 → 11 * k = 8 * m + r → ch k = (q m + 256 * q (m + 1) + 65536 * q (m + 2)) / 2 ^ r % 2048 :=
    fun k m r hk hr hstart => toNat_unpack_of_start (m := 11 * j + m) (by omega) hr (by omega)
  have hbyte : ∀ k, q k < 256 := fun k => (byteAt p (11 * j + k)).isLt
  clear_value q ch
  have h0 := hbyte 0; have h1 := hbyte 1; have h2 := hbyte 2; have h3 := hbyte 3; have h4 := hbyte 4; have h5 := hbyte 5
  have h6 := hbyte 6; have h7 := hbyte 7; have h8 := hbyte 8; have h9 := hbyte 9; have h10 := hbyte 10
  refine ⟨?_, ?_, ?_, ?_, ?_, ?_, ?_, ?_⟩
  · simp only [lane 0 0 0 (by decide) (by decide) rfl, Nat.reduceAdd]; omega
  · simp only [lane 1 1 3 (by decide) (by decide) rfl, Nat.reduceAdd]; omega
  · simp only [lane 2 2 6 (by decide) (by decide) rfl, Nat.reduceAdd]; omega
  · simp only [lane 3 4 1 (by decide) (by decide) rfl, Nat.reduceAdd]; omega
  · simp only [lane 4 5 4 (by decide) (by decide) rfl, Nat.reduceAdd]; omega
  · simp only [lane 5 6 7 (by decide) (by decide) rfl, Nat.reduceAdd]; omega
  · simp only [lane 6 8 2 (by decide) (by decide) rfl, Nat.reduceAdd]; omega
  · simp only [lane 7 9 5 (by decide) (by decide) rfl, Nat.reduceAdd]; omega

/-! ### The output ports (30 R108, 60 R341) -/

theorem evtKind_eq_four {e : OutEvent} : evtKind e = 4 ↔ ∃ c, e = .reject c := by cases e <;> simp [evtKind]

theorem evtKind_eq_three {e : OutEvent} : evtKind e = 3 ↔ ∃ a b, e = .heartbeat a b := by cases e <;> simp [evtKind]

theorem evtKind_eq_two {e : OutEvent} : evtKind e = 2 ↔ (∃ a, e = .ignoredType a) ∨ ∃ a, e = .ignoredMsg a := by
  cases e <;> simp [evtKind]

theorem evtKind_eq_one {e : OutEvent} : evtKind e = 1 ↔ ∃ a l, e = .telemetry a l := by cases e <;> simp [evtKind]

theorem evtKind_le_four (e : OutEvent) : evtKind e ≤ 4 := by cases e <;> simp [evtKind]

theorem evtCode_of_accepted {e : OutEvent} (h : ∀ c, e ≠ .reject c) : evtCode e = 0 := by
  cases e with
  | reject c => exact absurd rfl (h c)
  | _ => rfl

theorem portOut_evtKind {s : State} {e : OutEvent} (h : s.pulses.evt = some e) : (portOut s).evtKind = evtKind e := by
  simp [portOut, h]

theorem portOut_evtCode {s : State} {e : OutEvent} (h : s.pulses.evt = some e) : (portOut s).evtCode = evtCode e := by
  simp [portOut, h]

theorem getLsbD_ofBool_append : ∀ a b : Bool, (BitVec.ofBool a ++ BitVec.ofBool b).getLsbD 0 = b ∧
    (BitVec.ofBool a ++ BitVec.ofBool b).getLsbD 1 = a := by decide

/-- Bit 0 of the fault port is the input side's pulse, bit 1 the output side's (60 R358). -/
theorem portOut_fault (s : State) :
    (portOut s).fault.getLsbD 0 = s.pulses.faultIn ∧ (portOut s).fault.getLsbD 1 = s.pulses.faultOut :=
  getLsbD_ofBool_append s.pulses.faultOut s.pulses.faultIn

/-- Settles O55: an event's kind and code tell its class and its reject code. -/
theorem outputPortsShowTheStep : Obligations.OutputPortsShowTheStep := by
  intro s
  refine ⟨Option.isSome_iff_ne_none, fun e he => ?_, fun p hp he => ?_, (portOut_fault s).1, (portOut_fault s).2, rfl,
    decide_eq_true_iff, rfl⟩
  · rw [portOut_evtKind he, portOut_evtCode he]
    exact ⟨evtKind_eq_four, evtKind_eq_three, evtKind_eq_two, evtKind_eq_one, evtKind_le_four e, evtCode_of_accepted⟩
  · rw [portOut_evtCode he, evtCode]
    clear he
    revert p
    decide

end Sys2Proof.Machine
end

section
/-! Frames on the wire (family 30_encoding; 30 R91, R95, R96; 45 R305): what a sequence of received bytes leads to, and that a frame
sent byte by byte runs the row of the whole frame. -/

namespace Sys2Proof.Machine

/-! ### A sequence of received bytes -/

theorem run_succ {s t : State} (h : step s = .next t) (k : Nat) : Sys2Proof.core.run (k + 1) s = Sys2Proof.core.run k t := by
  have hstep : Sys2Proof.core.step s = .next t := h
  simp [Host.Core.run, hstep]

theorem run_add {s t : State} {m : Nat} (h : Sys2Proof.core.run m s = .next t) (n : Nat) :
    Sys2Proof.core.run (m + n) s = Sys2Proof.core.run n t := by
  induction m generalizing s with
  | zero => cases h; rw [Nat.zero_add]
  | succ m ih =>
    rw [Nat.succ_add]
    simp only [Host.Core.run] at h ⊢
    cases hs : Sys2Proof.core.step s with
    | next u => rw [hs] at h; exact ih h
    | fault f => simp [hs] at h
    | refused r => simp [hs] at h

/-- From every state with the invariant, these parameters and `P`, the bytes `l` at the head of the inbox lead to a state with `Q`,
one step a byte, which keep what the input side must keep. -/
def Receives (c : Config) (P : State → Prop) (l : List Byte) (Q : State → Prop) : Prop :=
  ∀ (s : State) (rest : List Event), s.Inv → s.cfg = c → s.inbox = byteEvents l ++ rest → P s →
    ∃ t, Sys2Proof.core.run l.length s = .next t ∧ InputKeeps (accept rest s) t ∧ Q t

section Receives

variable {c : Config} {P Q R : State → Prop}

theorem Receives.refl : Receives c P [] P := fun s _ hinv _ hinbox hP =>
  ⟨s, rfl, ⟨hinv, rfl, rfl, hinbox⟩, hP⟩

/-- One byte is one run of IN.RX; what is known before it may not speak of the inbox and the output signals. -/
theorem Receives.byte {b : Byte} (h : ∀ s : State, s.Inv → s.cfg = c → P s → ∃ t, exec (.inRx b) s = .next t ∧ Q t)
    (hP : ∀ s rest, P s → P (accept rest s) := by exact fun _ _ h => h) : Receives c P [b] Q := by
  intro s rest hinv hcfg hinbox hs
  obtain ⟨t, hnext, hQ⟩ := h (accept rest s) (accept_inv hinv rest) hcfg (hP s rest hs)
  obtain ⟨u, hu, huinv, huout, hucfg, huinbox⟩ := receivedByteCompletes b (accept rest s) (accept_inv hinv rest)
  obtain rfl : u = t := Host.Outcome.next.inj (hu.symm.trans hnext)
  have hstep : step s = .next u := by rw [step_cons hinbox, runEvent_rxByte]; exact hnext
  exact ⟨u, run_succ hstep 0, ⟨huinv, huout, hucfg, huinbox⟩, hQ⟩

theorem Receives.append {l l' : List Byte} (h : Receives c P l Q) (h' : Receives c Q l' R) : Receives c P (l ++ l') R := by
  intro s rest hinv hcfg hinbox hP
  have hsplit : s.inbox = byteEvents l ++ (byteEvents l' ++ rest) := by simpa [byteEvents] using hinbox
  obtain ⟨t, ht, htkeeps, hQ⟩ := h s _ hinv hcfg hsplit hP
  obtain ⟨u, hu, hukeeps, hR⟩ := h' t rest htkeeps.inv (htkeeps.cfg.trans hcfg) htkeeps.inbox hQ
  refine ⟨u, ?_, ⟨hukeeps.inv, hukeeps.out.trans htkeeps.out, hukeeps.cfg.trans htkeeps.cfg, hukeeps.inbox⟩, hR⟩
  rw [List.length_append, run_add ht, hu]

/-- Bytes each of which is added to those collected before it are all collected, as long as there is room for them. -/
theorem Receives.collect {P : List Byte → State → Prop} {n : Nat}
    (hstep : ∀ (done : List Byte) (b : Byte), done.length < n → Receives c (P done) [b] (P (done ++ [b])))
    (l done : List Byte) (hroom : done.length + l.length ≤ n) : Receives c (P done) l (P (done ++ l)) := by
  induction l generalizing done with
  | nil => rw [List.append_nil]; exact .refl
  | cons b l ih =>
    rw [List.length_cons] at hroom
    have hrest := ih (done ++ [b]) (by rw [List.length_append, List.length_singleton]; omega)
    rw [← List.append_cons] at hrest
    exact (hstep done b (by omega)).append hrest

end Receives

/-- A byte written behind the bytes already stored is read back behind them. -/
theorem Memory.readRange_write_end {m : Memory} (h : m.wf) {l : List Byte} (hl : m.readRange 0 l.length = l) (v : Byte) :
    (m.write l.length v).readRange 0 (l ++ [v]).length = l ++ [v] := by
  rw [List.length_append, List.length_singleton, Memory.readRange_succ, Memory.readRange_write_other h (.inr (by omega)), hl,
    Nat.zero_add, Memory.read_write_same h]

/-! ### The CRSF byte steps (41 R171 to R180) -/

section Crsf

variable {s : State} {b : Byte}

/-- A byte received by the CRSF parser runs the row its framer's state selects. -/
theorem exec_inRx_crsf {st : CrsfSt} (hin : crsfIn s st = true) (b : Byte) :
    exec (.inRx b) s = exec (byteInstr s.cfg (.crsf st) b) s := by
  obtain ⟨hp, hst⟩ := crsfIn_eq_true.1 hin
  rw [exec_inRx, byteCtx, hp, hst]

theorem execCrsfSync_next (hin : crsfIn s .awaitSync = true) (hb : b ∈ s.cfg.crsfSync) :
    execCrsfSync b s = .next (s.setCrsf { s.crsf with st := .awaitLength }) := by
  simp [execCrsfSync, hin, hb]

theorem execCrsfLen_next (hin : crsfIn s .awaitLength = true) (hmin : 2 ≤ b.toNat) (hmax : b.toNat ≤ s.cfg.crsfMaxLen) :
    execCrsfLen b s = .next (s.setCrsf { s.crsf with len := b, idx := 0, st := .accumulatePayload }) := by
  simp [execCrsfLen, hin, Nat.not_lt.2 hmin, Nat.not_lt.2 hmax]

theorem execCrsfAcc_next (hin : crsfIn s .accumulatePayload = true) (hroom : s.crsf.idx.toNat < s.cfg.crsfMaxLen) :
    execCrsfAcc b s = .next (s.setCrsf { s.crsf with
      buf := s.crsf.buf.write s.crsf.idx.toNat b
      idx := s.crsf.idx + 1
      st := if s.crsf.idx.toNat + 1 = s.crsf.len.toNat - 1 then .awaitCrc else s.crsf.st }) := by
  rw [execCrsfAcc, if_pos hin, memWrite_of_lt (b := .crsfBuf) hroom]
  rfl

/-- CRSF.CRC on a matching byte: the frame runs in the scan state (41 R179). -/
theorem execCrsfCrc_match (hin : crsfIn s .awaitCrc = true) (hlen : s.crsf.len.toNat - 1 ≤ s.cfg.crsfMaxLen)
    (hroom : s.crsf.idx.toNat < s.cfg.crsfMaxLen) {body : List Byte} (hbody : s.crsf.buf.readRange 0 (s.crsf.len.toNat - 1) = body) :
    execCrsfCrc (crc8 body) s = runCrsfFrame (byteAt body 0) (body.drop 1)
      (toScan .crsf (s.setCrsf { s.crsf with buf := s.crsf.buf.write s.crsf.idx.toNat (crc8 body) })) := by
  subst hbody
  rw [execCrsfCrc, if_pos hin, memRead_of_le (b := .crsfBuf) (by simpa using hlen), memWrite_of_lt (b := .crsfBuf) hroom]
  exact if_pos rfl

end Crsf

/-- The framer has stored `body` of a frame whose length byte is `n`, and awaits what comes next. -/
structure CrsfHolds (n : Byte) (body : List Byte) (r : CrsfRegs) : Prop where
  len : r.len = n
  idx : r.idx.toNat = body.length
  bytes : r.buf.readRange 0 body.length = body
  st : r.st = if body.length + 1 < n.toNat then .accumulatePayload else .awaitCrc

section CrsfFrame

variable {c : Config} (hp : c.protocol = .crsf)
include hp

theorem receives_crsfSync {sync : Byte} (hsync : sync ∈ c.crsfSync) :
    Receives c (fun s => s.crsf.st = .awaitSync) [sync] (fun t => t.crsf.st = .awaitLength) :=
  .byte fun s _ hcfg hst => by
    subst hcfg
    have hin := crsfIn_eq_true.2 ⟨hp, hst⟩
    rw [exec_inRx_crsf hin, byteInstr, if_pos (List.contains_iff_mem.2 hsync)]
    exact ⟨_, execCrsfSync_next hin hsync, rfl⟩

theorem receives_crsfLen {n : Byte} (hmin : 2 ≤ n.toNat) (hmax : n.toNat ≤ c.crsfMaxLen) :
    Receives c (fun s => s.crsf.st = .awaitLength) [n] (fun t => CrsfHolds n [] t.crsf) :=
  .byte fun s _ hcfg hst => by
    subst hcfg
    have hin := crsfIn_eq_true.2 ⟨hp, hst⟩
    rw [exec_inRx_crsf hin]
    exact ⟨_, execCrsfLen_next hin hmin hmax, rfl, rfl, rfl, (if_pos hmin).symm⟩

theorem receives_crsfAcc {n : Byte} (hmax : n.toNat ≤ c.crsfMaxLen) {body : List Byte} (hroom : body.length + 1 < n.toNat)
    (b : Byte) : Receives c (fun s => CrsfHolds n body s.crsf) [b] (fun t => CrsfHolds n (body ++ [b]) t.crsf) :=
  .byte fun s hinv hcfg ⟨hlen, hidx, hbytes, hst⟩ => by
    subst hcfg
    rw [if_pos hroom] at hst
    have hin := crsfIn_eq_true.2 ⟨hp, hst⟩
    rw [exec_inRx_crsf hin]
    refine ⟨_, execCrsfAcc_next hin (by omega), hlen, ?_, ?_, ?_⟩
    · have hlt := n.isLt
      simp only [State.setCrsf_crsf, List.length_append, List.length_singleton]
      bv_omega
    · rw [State.setCrsf_crsf, hidx]
      exact Memory.readRange_write_end hinv.crsfBuf.1 hbytes b
    · simp only [State.setCrsf_crsf, List.length_append, List.length_singleton, hidx, hlen, hst]
      by_cases hmore : body.length + 1 + 1 < n.toNat
      · rw [if_neg (by omega), if_pos hmore]
      · rw [if_pos (by omega), if_neg hmore]

/-- The frame's last byte runs the frame's row in the scan state. -/
theorem receives_crsfCrc {n type : Byte} {payload : List Byte} (hmax : n.toNat ≤ c.crsfMaxLen) (hn : n.toNat = payload.length + 2)
    {Q : State → Prop} (hrow : ∀ u : State, u.cfg = c → ∃ t, runCrsfFrame type payload (toScan .crsf u) = .next t ∧ Q t) :
    Receives c (fun s => CrsfHolds n (type :: payload) s.crsf) [crc8 (type :: payload)] Q :=
  .byte fun s hinv hcfg ⟨hlen, hidx, hbytes, hst⟩ => by
    subst hcfg
    rw [List.length_cons] at hidx hbytes hst
    rw [if_neg (by omega)] at hst
    have hin := crsfIn_eq_true.2 ⟨hp, hst⟩
    rw [exec_inRx_crsf hin]
    have hbody : s.crsf.buf.readRange 0 (s.crsf.len.toNat - 1) = type :: payload := by rw [hlen, hn]; exact hbytes
    change ∃ t, execCrsfCrc (crc8 (type :: payload)) s = .next t ∧ Q t
    rw [execCrsfCrc_match hin (by rw [hlen]; omega) (by omega) hbody]
    exact hrow _ rfl

/-- A frame of legal length with its CRC, sent from the scan state on, runs the row of its type in the scan state (30 R91; 41 R171 to
R179). -/
theorem receives_crsfFrame {sync : Byte} {payload : List Byte} (hsync : sync ∈ c.crsfSync) (hwf : wfCrsfPayload c payload = true)
    (type : Byte) {Q : State → Prop}
    (hrow : ∀ u : State, u.cfg = c → ∃ t, runCrsfFrame type payload (toScan .crsf u) = .next t ∧ Q t) :
    Receives c (fun s => s.crsf.st = .awaitSync) (crsfFrameOf sync type payload) Q := by
  obtain ⟨hmax, h255⟩ := wfCrsfPayload_iff.1 hwf
  have hn := toNat_ofNat_of_le h255
  have hframe : crsfFrameOf sync type payload =
      [sync] ++ ([BitVec.ofNat 8 (payload.length + 2)] ++ ((type :: payload) ++ [crc8 (type :: payload)])) := by simp [crsfFrameOf]
  have hmax' : (BitVec.ofNat 8 (payload.length + 2)).toNat ≤ c.crsfMaxLen := by omega
  have hbody := Receives.collect (P := fun body s => CrsfHolds (BitVec.ofNat 8 (payload.length + 2)) body s.crsf)
    (n := payload.length + 1) (fun body b hroom => receives_crsfAcc hp hmax' (by omega) b) (type :: payload) [] (by simp)
  rw [hframe]
  exact (receives_crsfSync hp hsync).append <| (receives_crsfLen hp (by omega) hmax').append <|
    hbody.append (receives_crsfCrc hp hmax' hn hrow)

end CrsfFrame

/-- CRSF.RC on 22 bytes: the channels are converted and published (42 R201). -/
theorem execCrsfRc_publishes {s : State} {payload : List Byte} (hp : s.cfg.protocol = .crsf) (hlen : payload.length = 22) :
    execCrsfRc payload s =
      .next (afterPublish (channelsToGamepad (unpack payload) s.cfg.channelMap) (.rcChannels (unpack payload)) s) := by
  simp only [execCrsfRc, hp, hlen, if_true]
  rfl

/-- Settles O33: the frame runs CRSF.RC in the scan state, which publishes. -/
theorem crsfFrameOnTheWirePublishes : Obligations.CrsfFrameOnTheWirePublishes := by
  intro s rest sync payload hinv hp hst hsync hlen hmax hinbox
  have hwf : wfCrsfPayload s.cfg payload = true := wfCrsfPayload_iff.2 ⟨by omega, by omega⟩
  have hrow : ∀ u : State, u.cfg = s.cfg → ∃ t, runCrsfFrame s.cfg.crsfTypeRc payload (toScan .crsf u) = .next t ∧
      t.crsf.st = .awaitSync ∧ t.mbox = ⟨channelsToGamepad (unpack payload) s.cfg.channelMap, true⟩ ∧
      t.pulses.evt = some (.rcChannels (unpack payload)) := fun u hu => by
    have hcfg : (toScan .crsf u).cfg = s.cfg := hu
    rw [runCrsfFrame, hcfg, crsfClassify_rc]
    refine ⟨_, execCrsfRc_publishes (by rw [hcfg, hp]) hlen, rfl, ?_, rfl⟩
    rw [hcfg]; rfl
  obtain ⟨t, hrun, hkeeps, hscan, hmbox, hevt⟩ := receives_crsfFrame hp hsync hwf s.cfg.crsfTypeRc hrow s rest hinv rfl hinbox hst
  have hsize : (crsfFrameOf sync s.cfg.crsfTypeRc payload).length = 26 := by rw [Laws.crsfFrameOf_length, hlen]
  exact ⟨t, hsize ▸ hrun, hkeeps.inbox, hscan, hmbox, hevt, hkeeps.out⟩

/-! ### The MAVLink byte steps (43 R231 to R243) -/

section Mav

variable {s : State} {b : Byte}

/-- A byte received by the MAVLink parser runs the row its framer's state selects. -/
theorem exec_inRx_mav {st : MavSt} (hin : mavIn s st = true) (b : Byte) :
    exec (.inRx b) s = exec (byteInstr s.cfg (.mav st) b) s := by
  obtain ⟨hp, hst⟩ := mavIn_eq_true.1 hin
  rw [exec_inRx, byteCtx, hp, hst]

/-- In the scan state the sync byte of a header format selects it. -/
theorem exec_inRx_mavSync (hin : mavIn s .awaitSync = true) (ver : MavVer) :
    exec (.inRx (syncOf ver)) s = .next (s.setMav { s.mav with ver := ver, st := .awaitLength }) := by
  rw [exec_inRx_mav hin]
  cases ver with
  | v1 => exact if_pos hin
  | v2 => exact if_pos hin

theorem execMavLen_next (hin : mavIn s .awaitLength = true) :
    execMavLen b s = .next (s.setMav { s.mav with len := b, hidx := 0, pidx := 0, st := .accumulateHeader }) := if_pos hin

theorem execMavHdr_next (hin : mavIn s .accumulateHeader = true) (hroom : s.mav.hidx < 8) :
    execMavHdr b s = .next (s.setMav { s.mav with
      hdr := s.mav.hdr.write s.mav.hidx b
      hidx := s.mav.hidx + 1
      st := if s.mav.hidx + 1 = hlen s.mav.ver then (if 0 < s.mav.len.toNat then .accumulatePayload else .awaitCrcLow)
            else s.mav.st }) := by
  rw [execMavHdr, if_pos hin, memWrite_of_lt (b := .mavHdr) hroom]
  rfl

theorem execMavPay_next (hin : mavIn s .accumulatePayload = true) (hroom : s.mav.pidx < s.cfg.mavMaxPayload) :
    execMavPay b s = .next (s.setMav { s.mav with
      pay := s.mav.pay.write s.mav.pidx b
      pidx := s.mav.pidx + 1
      st := if s.mav.pidx + 1 = s.mav.len.toNat then .awaitCrcLow else s.mav.st }) := by
  rw [execMavPay, if_pos hin, memWrite_of_lt (b := .mavPay) hroom]
  rfl

theorem execMavCrcLo_next (hin : mavIn s .awaitCrcLow = true) :
    execMavCrcLo b s = .next (s.setMav { s.mav with crcLo := b, st := .awaitCrcHigh }) := if_pos hin

/-- MAV.CRCHI on a frame that is not rejected: the frame runs in the scan state (43 R241). -/
theorem execMavCrcHi_accept (hin : mavIn s .awaitCrcHigh = true) (hlenMax : s.mav.len.toNat ≤ s.cfg.mavMaxPayload) {hdr pay : List Byte}
    (hhdr : s.mav.hdr.readRange 0 (hlen s.mav.ver) = hdr) (hpay : s.mav.pay.readRange 0 s.mav.len.toNat = pay) {cls : MavClass}
    (hcls : mavClassify s.cfg s.mav.ver s.mav.len hdr pay (le16 s.mav.crcLo b) = .ok cls) :
    execMavCrcHi b s = runMavFrame cls s.mav.ver hdr pay (le16 s.mav.crcLo b) (toScan .mavlink s) := by
  subst hhdr hpay
  rw [execMavCrcHi, if_pos hin, memRead_of_le (b := .mavHdr) (by simpa using hlen_le s.mav.ver),
    memRead_of_le (b := .mavPay) (by simpa using hlenMax)]
  simp only [State.buf_hdr, State.buf_pay, hcls]

end Mav

/-- The framer has stored the header bytes `hdr` and the payload bytes `pay` of a frame of this format and length byte. -/
structure MavHolds (ver : MavVer) (n : Byte) (hdr pay : List Byte) (r : MavRegs) : Prop where
  ver : r.ver = ver
  len : r.len = n
  hidx : r.hidx = hdr.length
  pidx : r.pidx = pay.length
  hdrBytes : r.hdr.readRange 0 hdr.length = hdr
  payBytes : r.pay.readRange 0 pay.length = pay

/-- What the framer awaits when it has stored these bytes: header, then payload, then the CRC (43 R235, R236). -/
def mavAwaits (ver : MavVer) (n : Byte) (hdr pay : List Byte) : MavSt :=
  if hdr.length < hlen ver then .accumulateHeader else if pay.length < n.toNat then .accumulatePayload else .awaitCrcLow

section MavFrame

variable {c : Config} (hp : c.protocol = .mavlink)
include hp

theorem receives_mavSync (ver : MavVer) :
    Receives c (fun s => s.mav.st = .awaitSync) [syncOf ver] (fun t => t.mav.st = .awaitLength ∧ t.mav.ver = ver) :=
  .byte fun s _ hcfg hst => by
    subst hcfg
    exact ⟨_, exec_inRx_mavSync (mavIn_eq_true.2 ⟨hp, hst⟩) ver, rfl, rfl⟩

theorem receives_mavLen (ver : MavVer) (n : Byte) :
    Receives c (fun s => s.mav.st = .awaitLength ∧ s.mav.ver = ver) [n]
      (fun t => MavHolds ver n [] [] t.mav ∧ t.mav.st = mavAwaits ver n [] []) :=
  .byte fun s _ hcfg ⟨hst, hver⟩ => by
    subst hcfg
    have hin := mavIn_eq_true.2 ⟨hp, hst⟩
    rw [exec_inRx_mav hin]
    exact ⟨_, execMavLen_next hin, ⟨hver, rfl, rfl, rfl, rfl, rfl⟩, (if_pos (hlen_pos ver)).symm⟩

theorem receives_mavHdr {ver : MavVer} {n : Byte} {hdr : List Byte} (hroom : hdr.length < hlen ver) (b : Byte) :
    Receives c (fun s => MavHolds ver n hdr [] s.mav ∧ s.mav.st = mavAwaits ver n hdr []) [b]
      (fun t => MavHolds ver n (hdr ++ [b]) [] t.mav ∧ t.mav.st = mavAwaits ver n (hdr ++ [b]) []) :=
  .byte fun s hinv hcfg ⟨⟨hver, hn, hhidx, hpidx, hhdr, hpay⟩, hst⟩ => by
    subst hcfg
    rw [mavAwaits, if_pos hroom] at hst
    have hin := mavIn_eq_true.2 ⟨hp, hst⟩
    have hcap := hlen_le ver
    rw [exec_inRx_mav hin]
    refine ⟨_, execMavHdr_next hin (by omega), ⟨hver, hn, ?_, hpidx, ?_, hpay⟩, ?_⟩
    · rw [State.setMav_mav, hhidx, List.length_append, List.length_singleton]
    · rw [State.setMav_mav, hhidx]
      exact Memory.readRange_write_end hinv.mavHdr.1 hhdr b
    · simp only [State.setMav_mav, mavAwaits, List.length_append, List.length_singleton, List.length_nil, hhidx, hver, hn, hst]
      by_cases hmore : hdr.length + 1 < hlen ver
      · rw [if_neg (by omega), if_pos hmore]
      · rw [if_pos (by omega), if_neg hmore]

theorem receives_mavPay {ver : MavVer} {n : Byte} {hdr pay : List Byte} (hmax : n.toNat ≤ c.mavMaxPayload)
    (hhdrLen : hdr.length = hlen ver) (hroom : pay.length < n.toNat) (b : Byte) :
    Receives c (fun s => MavHolds ver n hdr pay s.mav ∧ s.mav.st = mavAwaits ver n hdr pay) [b]
      (fun t => MavHolds ver n hdr (pay ++ [b]) t.mav ∧ t.mav.st = mavAwaits ver n hdr (pay ++ [b])) :=
  .byte fun s hinv hcfg ⟨⟨hver, hn, hhidx, hpidx, hhdr, hpay⟩, hst⟩ => by
    subst hcfg
    have hdone : ¬ hdr.length < hlen ver := hhdrLen.not_lt
    rw [mavAwaits, if_neg hdone, if_pos hroom] at hst
    have hin := mavIn_eq_true.2 ⟨hp, hst⟩
    rw [exec_inRx_mav hin]
    refine ⟨_, execMavPay_next hin (by omega), ⟨hver, hn, hhidx, ?_, hhdr, ?_⟩, ?_⟩
    · rw [State.setMav_mav, hpidx, List.length_append, List.length_singleton]
    · rw [State.setMav_mav, hpidx]
      exact Memory.readRange_write_end hinv.mavPay.1 hpay b
    · simp only [State.setMav_mav, mavAwaits, List.length_append, List.length_singleton, hpidx, hn, hst]
      rw [if_neg hdone]
      by_cases hmore : pay.length + 1 < n.toNat
      · rw [if_neg (by omega), if_pos hmore]
      · rw [if_pos (by omega), if_neg hmore]

theorem receives_mavCrcLo {ver : MavVer} {n : Byte} {hdr pay : List Byte} (hhdrLen : hdr.length = hlen ver)
    (hpayLen : pay.length = n.toNat) (lo : Byte) :
    Receives c (fun s => MavHolds ver n hdr pay s.mav ∧ s.mav.st = mavAwaits ver n hdr pay) [lo]
      (fun t => MavHolds ver n hdr pay t.mav ∧ t.mav.st = .awaitCrcHigh ∧ t.mav.crcLo = lo) :=
  .byte fun s _ hcfg ⟨hholds, hst⟩ => by
    subst hcfg
    rw [mavAwaits, if_neg hhdrLen.not_lt, if_neg hpayLen.not_lt] at hst
    have hin := mavIn_eq_true.2 ⟨hp, hst⟩
    rw [exec_inRx_mav hin]
    exact ⟨_, execMavCrcLo_next hin, { hholds with }, rfl, rfl⟩

/-- The last byte of a frame that is not rejected runs the frame's row in the scan state. -/
theorem receives_mavCrcHi {ver : MavVer} {n : Byte} {hdr pay : List Byte} {lo hi : Byte} {cls : MavClass}
    (hmax : n.toNat ≤ c.mavMaxPayload) (hhdrLen : hdr.length = hlen ver) (hpayLen : pay.length = n.toNat)
    (hcls : mavClassify c ver n hdr pay (le16 lo hi) = .ok cls) {Q : State → Prop}
    (hrow : ∀ u : State, u.cfg = c → ∃ t, runMavFrame cls ver hdr pay (le16 lo hi) (toScan .mavlink u) = .next t ∧ Q t) :
    Receives c (fun s => MavHolds ver n hdr pay s.mav ∧ s.mav.st = .awaitCrcHigh ∧ s.mav.crcLo = lo) [hi] Q :=
  .byte fun s _ hcfg ⟨⟨hver, hn, _, _, hhdr, hpay⟩, hst, hlo⟩ => by
    subst hcfg hver hn hlo
    have hin := mavIn_eq_true.2 ⟨hp, hst⟩
    rw [hhdrLen] at hhdr
    rw [hpayLen] at hpay
    rw [exec_inRx_mav hin]
    change ∃ t, execMavCrcHi hi s = .next t ∧ Q t
    rw [execMavCrcHi_accept hin hmax hhdr hpay hcls]
    exact hrow s rfl

/-- A frame that is not rejected, sent from the scan state on, runs the row of its class in the scan state (30 R95, R96; 43 R231 to
R241). -/
theorem receives_mavFrame (hmax : c.mavMaxPayload = 255) {h : MavHeader} {id : MsgId} {payload : List Byte} {crc : Half}
    {cls : MavClass} (hlength : payload.length ≤ 255)
    (hcls : mavClassify c (headerVer h) (BitVec.ofNat 8 payload.length) (headerBytes h id) payload crc = .ok cls) {Q : State → Prop}
    (hrow : ∀ u : State, u.cfg = c →
      ∃ t, runMavFrame cls (headerVer h) (headerBytes h id) payload crc (toScan .mavlink u) = .next t ∧ Q t) :
    Receives c (fun s => s.mav.st = .awaitSync) (mavFrameOf h id payload crc) Q := by
  have hn := toNat_ofNat_of_le hlength
  have hmax' : (BitVec.ofNat 8 payload.length).toNat ≤ c.mavMaxPayload := by omega
  have hhdrLen := Laws.headerBytes_length h id
  have hframe : mavFrameOf h id payload crc = [syncOf (headerVer h)] ++ ([BitVec.ofNat 8 payload.length] ++
      (headerBytes h id ++ (payload ++ ([byteOf crc 0] ++ [byteOf crc 1])))) := by simp [mavFrameOf]
  have hhdr := Receives.collect (c := c) (n := hlen (headerVer h))
    (P := fun hdr s => MavHolds (headerVer h) (BitVec.ofNat 8 payload.length) hdr [] s.mav ∧
      s.mav.st = mavAwaits (headerVer h) (BitVec.ofNat 8 payload.length) hdr [])
    (fun hdr b hroom => receives_mavHdr hp hroom b) (headerBytes h id) [] (by simp [hhdrLen])
  have hpay := Receives.collect (c := c) (n := payload.length)
    (P := fun pay s => MavHolds (headerVer h) (BitVec.ofNat 8 payload.length) (headerBytes h id) pay s.mav ∧
      s.mav.st = mavAwaits (headerVer h) (BitVec.ofNat 8 payload.length) (headerBytes h id) pay)
    (fun pay b hroom => receives_mavPay hp hmax' hhdrLen (by omega) b) payload [] (by simp)
  rw [← le16_byteOf crc] at hcls hrow
  rw [hframe]
  exact (receives_mavSync hp _).append <| (receives_mavLen hp _ _).append <| hhdr.append <| hpay.append <|
    (receives_mavCrcLo hp hhdrLen hn.symm _).append (receives_mavCrcHi hp hmax' hhdrLen hn.symm hcls hrow)

end MavFrame

/-- MAV.MANUAL_CONTROL: whatever its length, the payload is converted and published (44 R272). -/
theorem execMavManualControl_publishes {s : State} (hp : s.cfg.protocol = .mavlink) (h : MavHeader) (payload : List Byte) :
    execMavManualControl h payload s =
      .next (afterPublish (manualToGamepad (manualFields payload) s.cfg.axisMap) (.manualControl (manualFields payload)) s) :=
  if_pos hp

/-- Settles O51: the frame runs MAV.MANUAL_CONTROL in the scan state, which publishes. -/
theorem mavFrameOnTheWirePublishes : Obligations.MavFrameOnTheWirePublishes := by
  intro s rest h payload hinv hp hst hlength hextra hinbox
  obtain ⟨-, -, -, -, -, hmax⟩ := hinv.cfg
  have hcls : mavClassify s.cfg (headerVer h) (BitVec.ofNat 8 payload.length) (headerBytes h 69) payload (crcFor s.cfg h 69 payload) =
      .ok .manualControl := mavClassify_crcFor (.inr (by decide)) hextra
  have hrow : ∀ u : State, u.cfg = s.cfg → ∃ t,
      runMavFrame .manualControl (headerVer h) (headerBytes h 69) payload (crcFor s.cfg h 69 payload) (toScan .mavlink u) = .next t ∧
      t.mav.st = .awaitSync ∧ t.mbox = ⟨manualToGamepad (manualFields payload) s.cfg.axisMap, true⟩ ∧
      t.pulses.evt = some (.manualControl (manualFields payload)) := fun u hu => by
    have hcfg : (toScan .mavlink u).cfg = s.cfg := hu
    refine ⟨_, execMavManualControl_publishes (by rw [hcfg, hp]) h payload, rfl, ?_, rfl⟩
    rw [hcfg]; rfl
  obtain ⟨t, hrun, hkeeps, hscan, hmbox, hevt⟩ := receives_mavFrame hp hmax hlength hcls hrow s rest hinv rfl hinbox hst
  rw [Laws.mavFrameOf_length] at hrun
  exact ⟨t, hrun, hkeeps.inbox, hscan, hmbox, hevt, hkeeps.out⟩

end Sys2Proof.Machine
end

section
/-! Text lines and their rows (family 40_text_parser; 40 R132 to R153): what each check of a line refuses, what a row makes of its
operand, and what the line framer does with a byte and with a newline. -/

namespace Sys2Proof.Machine

/-! ### The end of a line -/

section Rows

variable {s : State} {k : LineKind} {operand : List Byte}

theorem textRow_of_ok {m : LineMsg} (hp : s.cfg.protocol = .text) (h : lineValue k operand = .ok m) :
    textRow k operand s = .next (afterLine (heldAfter s.txt.held m) (lineEvent m) s) := by
  rw [textRow_eq k operand s hp, h, finishLine_eq]

theorem textRow_of_error {c : RejectCode} (hp : s.cfg.protocol = .text) (h : lineValue k operand = .error c) :
    textRow k operand s = .next (afterReject .text c s) := by
  rw [textRow_eq k operand s hp, h, finishLine_eq]

end Rows

/-! ### The operand of an update (40 R142 to R148) -/

section Operands

variable {val : List Byte}

theorem stickInRange_eq_true {v : Int} : stickInRange v = true ↔ -32768 ≤ v ∧ v ≤ 32767 := decide_eq_true_iff

theorem triggerInRange_eq_true {v : Int} : triggerInRange v = true ↔ 0 ≤ v ∧ v ≤ 255 := decide_eq_true_iff

theorem stickInRange_toInt (v : Half) : stickInRange v.toInt = true :=
  stickInRange_eq_true.2 ⟨by have := v.le_toInt; omega, by have := v.toInt_lt; omega⟩

theorem triggerInRange_toNat (v : Byte) : triggerInRange v.toNat = true :=
  triggerInRange_eq_true.2 ⟨by omega, by omega⟩

theorem ofInt_toNat (v : Byte) : BitVec.ofInt 8 v.toNat = v := by rw [BitVec.ofInt_natCast, BitVec.ofNat_toNat, BitVec.setWidth_eq]

theorem parseButtons_of_hex4 {v : Half} (h : parseHex4 val = some v.toNat) : parseButtons val = .ok v := by
  simp [parseButtons, h]

theorem parseButtons_malformed (h : parseHex4 val = none) : parseButtons val = .error .txtMalformedField := by
  simp [parseButtons, h]

theorem parseStick_of_dec {v : Half} (h : parseDec val = some v.toInt) : parseStick val = .ok v := by
  simp [parseStick, h, stickInRange_toInt]

theorem parseStick_malformed (h : parseDec val = none) : parseStick val = .error .txtMalformedField := by
  simp [parseStick, h]

theorem parseStick_outOfRange {v : Int} (h : parseDec val = some v) (hv : v < -32768 ∨ 32767 < v) :
    parseStick val = .error .txtOutOfRange := by
  have hrange : ¬ stickInRange v = true := by rw [stickInRange_eq_true]; omega
  simp [parseStick, h, hrange]

theorem parseTrigger_of_dec {v : Byte} (h : parseDec val = some (v.toNat : Int)) : parseTrigger val = .ok v := by
  simp only [parseTrigger, h, triggerInRange_toNat, ofInt_toNat, if_true]

theorem parseTrigger_malformed (h : parseDec val = none) : parseTrigger val = .error .txtMalformedField := by
  simp [parseTrigger, h]

theorem parseTrigger_outOfRange {v : Int} (h : parseDec val = some v) (hv : v < 0 ∨ 255 < v) :
    parseTrigger val = .error .txtOutOfRange := by
  have hrange : ¬ triggerInRange v = true := by rw [triggerInRange_eq_true]; omega
  simp [parseTrigger, h, hrange]

end Operands

/-! Each row maps the value of its operand to its message, so a result of the operand is a result of the row. -/

/-- Settles O19: a stick value in range is the message of each of the four rows. -/
theorem stickUpdateRowsMerge : Obligations.StickUpdateRowsMerge := by
  intro s val v hp hval
  have hv := parseStick_of_dec hval
  exact ⟨textRow_of_ok (k := .lx) hp (congrArg (Except.map _) hv), textRow_of_ok (k := .ly) hp (congrArg (Except.map _) hv),
    textRow_of_ok (k := .rx) hp (congrArg (Except.map _) hv), textRow_of_ok (k := .ry) hp (congrArg (Except.map _) hv)⟩

/-- Settles O20: so is a trigger value of the two trigger rows, and a button value of the button row. -/
theorem triggerAndButtonUpdateRowsMerge : Obligations.TriggerAndButtonUpdateRowsMerge := by
  intro s val hp
  refine ⟨fun v hval => ?_, fun v hval => ?_⟩
  · have hv := parseTrigger_of_dec hval
    exact ⟨textRow_of_ok (k := .lt) hp (congrArg (Except.map _) hv), textRow_of_ok (k := .rt) hp (congrArg (Except.map _) hv)⟩
  · exact textRow_of_ok (k := .b) hp (congrArg (Except.map _) (parseButtons_of_hex4 hval))

/-! ### The operand of a full-state line (40 R140) -/

/-- The operand has seven fields, each well formed, which stand for these values. -/
def FullReads (rest : List Byte) (b : Nat) (lx ly rx ry lt rt : Int) : Prop :=
  ∃ f0 f1 f2 f3 f4 f5 f6, splitFields rest = [f0, f1, f2, f3, f4, f5, f6] ∧ parseHex4 f0 = some b ∧ parseDec f1 = some lx ∧
    parseDec f2 = some ly ∧ parseDec f3 = some rx ∧ parseDec f4 = some ry ∧ parseDec f5 = some lt ∧ parseDec f6 = some rt

section Full

variable {rest : List Byte}

/-- After field count and field forms only the ranges are left to check. -/
theorem parseFull_of_reads {b : Nat} {lx ly rx ry lt rt : Int} (h : FullReads rest b lx ly rx ry lt rt) :
    parseFull rest =
      if stickInRange lx && stickInRange ly && stickInRange rx && stickInRange ry && triggerInRange lt && triggerInRange rt then
        .ok { buttons := BitVec.ofNat 16 b, lx := BitVec.ofInt 16 lx, ly := BitVec.ofInt 16 ly, rx := BitVec.ofInt 16 rx,
              ry := BitVec.ofInt 16 ry, lt := BitVec.ofInt 8 lt, rt := BitVec.ofInt 8 rt }
      else .error .txtOutOfRange := by
  obtain ⟨f0, f1, f2, f3, f4, f5, f6, hfields, h0, h1, h2, h3, h4, h5, h6⟩ := h
  simp only [parseFull, hfields, h0, h1, h2, h3, h4, h5, h6]

theorem parseFull_fieldCount (h : (splitFields rest).length ≠ 7) : parseFull rest = .error .txtMalformedField := by
  unfold parseFull
  split
  next hfields => rw [hfields] at h; exact absurd rfl h
  · rfl

theorem parseFull_malformed {f0 f1 f2 f3 f4 f5 f6 : List Byte} (hfields : splitFields rest = [f0, f1, f2, f3, f4, f5, f6])
    (h : parseHex4 f0 = none ∨ ∃ f ∈ [f1, f2, f3, f4, f5, f6], parseDec f = none) :
    parseFull rest = .error .txtMalformedField := by
  simp only [parseFull, hfields]
  split
  · simp_all
  · rfl

end Full

theorem toInt_ofInt_of_stickRange {v : Int} (h : -32768 ≤ v ∧ v ≤ 32767) : (BitVec.ofInt 16 v).toInt = v := by
  rw [BitVec.toInt_ofInt, Int.bmod_eq_of_le (by omega) (by omega)]

theorem toNat_ofInt_of_triggerRange {v : Int} (h : 0 ≤ v ∧ v ≤ 255) : ((BitVec.ofInt 8 v).toNat : Int) = v := by
  rw [BitVec.toNat_ofInt]
  omega

/-- Settles O17: fields in their ranges are kept exactly by the 16-bit and 8-bit registers. -/
theorem fullStateRowSetsEveryField : Obligations.FullStateRowSetsEveryField := by
  intro s rest f0 f1 f2 f3 f4 f5 f6 b lx ly rx ry lt rt hp hfields h0 h1 h2 h3 h4 h5 h6 hsticks htriggers
  simp only [List.forall_mem_cons, List.not_mem_nil, false_imp_iff, implies_true, and_true] at hsticks htriggers
  obtain ⟨hlx, hly, hrx, hry⟩ := hsticks
  obtain ⟨hlt, hrt⟩ := htriggers
  have hparse := parseFull_of_reads ⟨f0, f1, f2, f3, f4, f5, f6, hfields, h0, h1, h2, h3, h4, h5, h6⟩
  rw [if_pos (by simp only [Bool.and_eq_true, stickInRange_eq_true, triggerInRange_eq_true]; omega)] at hparse
  exact ⟨_, textRow_of_ok (k := .full) hp (congrArg (Except.map _) hparse), rfl, toInt_ofInt_of_stickRange hlx,
    toInt_ofInt_of_stickRange hly, toInt_ofInt_of_stickRange hrx, toInt_ofInt_of_stickRange hry,
    toNat_ofInt_of_triggerRange hlt, toNat_ofInt_of_triggerRange hrt⟩

/-- Settles O18: the three ways the operand of a full-state line is refused. -/
theorem fullStateRowRejects : Obligations.FullStateRowRejects := by
  intro s rest hp
  have reject : ∀ {c : RejectCode}, parseFull rest = .error c → exec (.txtG rest) s = .next (afterReject .text c s) := fun h =>
    textRow_of_error (k := .full) hp (congrArg (Except.map _) h)
  refine ⟨fun hcount => reject (parseFull_fieldCount hcount), fun f0 f1 f2 f3 f4 f5 f6 hfields =>
    ⟨fun hform => reject (parseFull_malformed hfields hform), ?_⟩⟩
  intro b lx ly rx ry lt rt h0 h1 h2 h3 h4 h5 h6 hrange
  refine reject ((parseFull_of_reads ⟨f0, f1, f2, f3, f4, f5, f6, hfields, h0, h1, h2, h3, h4, h5, h6⟩).trans (if_neg ?_))
  simp only [List.exists_mem_cons_iff, List.not_mem_nil, false_and, exists_false, or_false] at hrange
  simp only [Bool.and_eq_true, stickInRange_eq_true, triggerInRange_eq_true]
  omega

/-! ### parse in two parts: the checks of a line, then its operand (40 R132) -/

section Parse

variable {line : List Byte}

theorem parse_of_error {c : RejectCode} (h : splitLine line = .error c) : parse line = .error c := by
  rw [parse, h]

theorem parse_of_ok {p : LineKind × List Byte} (h : splitLine line = .ok p) : parse line = lineValue p.1 p.2 := by
  rw [parse, h]

end Parse

/-! ### The line framer (40 R149, R150) -/

section Framer

variable {s : State} (hp : s.cfg.protocol = .text)
include hp

theorem execTxtByte_stores {b : Byte} (hb : b ≠ chLf) (hroom : s.txt.idx < s.cfg.textLineMax - 1) :
    execTxtByte b s = .next (s.setTxt { s.txt with buf := s.txt.buf.write s.txt.idx b, idx := s.txt.idx + 1 }) := by
  have hhas : lineHasRoom s = true := decide_eq_true hroom
  rw [execTxtByte, if_pos ⟨hp, hb⟩, if_pos hhas, memWrite_of_lt (b := .txtBuf) hroom, ovfAfterByte, if_pos hhas]
  rfl

theorem execTxtByte_overflows {b : Byte} (hb : b ≠ chLf) (hfull : s.cfg.textLineMax - 1 ≤ s.txt.idx) :
    execTxtByte b s = .next (s.setTxt { s.txt with ovf := true }) := by
  have hhas : lineHasRoom s = false := decide_eq_false (not_lt.2 hfull)
  simp [execTxtByte, hp, hb, hhas, ovfAfterByte]

theorem execTxtLf_overlong (hovf : s.txt.ovf = true) : execTxtLf s = .next (afterReject .text .txtLineTooLong s) := by
  simp [execTxtLf, hp, hovf, raiseReject_eq]

/-- The collected bytes and the newline are parsed, and the line ends in an emptied buffer. -/
theorem execTxtLf_parses (hidx : s.txt.idx ≤ s.cfg.textLineMax - 1) (hovf : s.txt.ovf = false) :
    execTxtLf s = .next (finishLine (parse (s.txt.buf.readRange 0 s.txt.idx ++ [chLf])) (s.setTxt { s.txt with idx := 0 })) := by
  have hread : s.memRead .txtBuf 0 s.txt.idx = some (s.txt.buf.readRange 0 s.txt.idx) :=
    memRead_of_le (b := .txtBuf) (by rw [Nat.zero_add]; exact hidx)
  cases hsplit : splitLine (s.txt.buf.readRange 0 s.txt.idx ++ [chLf]) with
  | error c =>
    rw [parse_of_error hsplit]
    simp only [execTxtLf, hp, hovf, hread, hsplit, if_true, Bool.false_eq_true, if_false, finishLine]
  | ok p =>
    rw [parse_of_ok hsplit, ← textRow_eq p.1 p.2 (s.setTxt { s.txt with idx := 0 }) hp, ← runLine_eq]
    simp only [execTxtLf, hp, hovf, hread, hsplit, if_true, Bool.false_eq_true, if_false]

end Framer

/-- Settles O15: the byte is stored or overflows; with txt.ovf set the buffer is full, and txt.ovf is set again. -/
theorem textByteIsStoredOrOverflows : Obligations.TextByteIsStoredOrOverflows := by
  intro b s hp hb hwf
  refine ⟨fun _ hroom => ⟨_, execTxtByte_stores hp hb hroom, fun a => Memory.read_write hwf s.txt.idx a b, rfl⟩,
    execTxtByte_overflows hp hb, fun ⟨_, hfull⟩ hovf => ?_⟩
  refine (execTxtByte_overflows hp hb (hfull hovf).ge).trans ?_
  rw [← hovf]
  rfl

/-- Settles O16: the end of the line in the emptied buffer, for each result of parse. -/
theorem newlineParsesTheLine : Obligations.NewlineParsesTheLine := by
  intro s hp hidx
  refine ⟨execTxtLf_overlong hp, fun hovf => ?_⟩
  have hlf : exec .txtLf s = _ := execTxtLf_parses hp hidx hovf
  simp only [finishLine_eq] at hlf
  refine ⟨fun c hline => ?_, fun g hline => ?_, fun u hline => ?_⟩ <;>
  · change parse (s.txt.buf.readRange 0 s.txt.idx ++ [chLf]) = _ at hline
    rw [hlf, hline]
    rfl

end Sys2Proof.Machine
end

section
/-! The checks of a text line in their order (family 40_text_parser; 40 R131 to R141, R158): each reject of parse, what an accepted line
has passed, and why one changed byte never gives another value. -/

namespace Sys2Proof.Machine

/-! ### xor8 (40 R131) -/

theorem xor8_cons (a : Byte) (l : List Byte) : xor8 (a :: l) = a ^^^ xor8 l :=
  calc xor8 (a :: l) = l.foldl (· ^^^ ·) (a ^^^ 0) := by simp [xor8]
    _ = a ^^^ xor8 l := List.foldl_assoc

/-- One changed byte changes the sum, since the other bytes cancel. -/
theorem xor8_set_ne {l : List Byte} {i : Nat} {b : Byte} (hi : i < l.length) (hb : b ≠ byteAt l i) :
    xor8 (l.set i b) ≠ xor8 l := by
  induction l generalizing i with
  | nil => exact absurd hi (Nat.not_lt_zero i)
  | cons a l ih =>
    cases i with
    | zero => rw [List.set_cons_zero, xor8_cons, xor8_cons, Ne, BitVec.xor_left_inj]; exact hb
    | succ i =>
      rw [List.set_cons_succ, xor8_cons, xor8_cons, Ne, BitVec.xor_right_inj]
      exact ih (Nat.lt_of_succ_lt_succ hi) hb

/-! ### Checks 1 to 4: terminator, star, checksum digits, checksum value (40 R133 to R136) -/

theorem hexVal_lt {b : Byte} {v : Nat} (h : hexVal b = some v) : v < 16 := by
  unfold hexVal at h
  split at h
  · cases h; bv_omega
  split at h
  · cases h; bv_omega
  split at h
  · cases h; bv_omega
  · cases h

section Checks

variable {line : List Byte}

theorem splitLine_missingNewline (h : line.length = 0 ∨ byteAt line (line.length - 1) ≠ chLf) :
    splitLine line = .error .txtMissingNewline := if_pos h

theorem splitLine_missingStar (hsize : line.length ≠ 0) (hlf : byteAt line (line.length - 1) = chLf)
    (h : line.length < 4 ∨ byteAt line (line.length - 4) ≠ chStar) : splitLine line = .error .txtMissingStar := by
  rw [splitLine, if_neg (not_or.2 ⟨hsize, not_not.2 hlf⟩), if_pos h]

theorem splitLine_badChecksumField (hsize : 4 ≤ line.length) (hlf : byteAt line (line.length - 1) = chLf)
    (hstar : byteAt line (line.length - 4) = chStar)
    (h : hexVal (byteAt line (line.length - 3)) = none ∨ hexVal (byteAt line (line.length - 2)) = none) :
    splitLine line = .error .txtBadChecksumField := by
  rw [splitLine, if_neg (not_or.2 ⟨by omega, not_not.2 hlf⟩), if_neg (not_or.2 ⟨by omega, not_not.2 hstar⟩)]
  split
  · simp_all
  · rfl

/-- The line has passed checks 1 to 3, and its checksum digits stand for `sum`. -/
structure Framed (line : List Byte) (sum : Nat) : Prop where
  size : 4 ≤ line.length
  newline : byteAt line (line.length - 1) = chLf
  star : byteAt line (line.length - 4) = chStar
  digits : ∃ h1 h0, hexVal (byteAt line (line.length - 3)) = some h1 ∧ hexVal (byteAt line (line.length - 2)) = some h0 ∧
    16 * h1 + h0 = sum

theorem splitLine_of_framed {sum : Nat} (h : Framed line sum) :
    splitLine line = if (xor8 (line.take (line.length - 4))).toNat = sum then splitBody (line.take (line.length - 4))
      else .error .txtChecksumMismatch := by
  obtain ⟨hsize, hlf, hstar, h1, h0, hh1, hh0, rfl⟩ := h
  have hlt1 := hexVal_lt hh1
  have hlt0 := hexVal_lt hh0
  rw [splitLine, if_neg (not_or.2 ⟨by omega, not_not.2 hlf⟩), if_neg (not_or.2 ⟨by omega, not_not.2 hstar⟩)]
  simp only [hh1, hh0]
  by_cases hsum : (xor8 (line.take (line.length - 4))).toNat = 16 * h1 + h0
  · rw [if_neg (by bv_omega), if_pos hsum]
  · rw [if_pos (by bv_omega), if_neg hsum]

/-- What a line that parse looks into has passed. -/
theorem framed_of_splitLine_ok {p : LineKind × List Byte} (h : splitLine line = .ok p) :
    Framed line (xor8 (line.take (line.length - 4))).toNat ∧ splitBody (line.take (line.length - 4)) = .ok p := by
  have hframed : ∃ sum, Framed line sum := by
    simp only [splitLine] at h
    split at h
    · cases h
    next hlf =>
      obtain ⟨-, hlf⟩ := not_or.1 hlf
      split at h
      · cases h
      next hstar =>
        obtain ⟨hsize, hstar⟩ := not_or.1 hstar
        split at h
        next hh1 hh0 => exact ⟨_, not_lt.1 hsize, not_not.1 hlf, not_not.1 hstar, _, _, hh1, hh0, rfl⟩
        · cases h
  obtain ⟨sum, hframed⟩ := hframed
  rw [splitLine_of_framed hframed] at h
  split at h
  next hsum => subst hsum; exact ⟨hframed, h⟩
  · cases h

/-- A line is accepted for its body's sake: the checksum passed, and the body's split has the message as its value. -/
theorem framed_of_parse_ok {m : LineMsg} (h : parse line = .ok m) :
    Framed line (xor8 (line.take (line.length - 4))).toNat ∧
      ∃ p, splitBody (line.take (line.length - 4)) = .ok p ∧ lineValue p.1 p.2 = .ok m := by
  cases hsplit : splitLine line with
  | error c =>
    rw [parse_of_error hsplit] at h
    cases h
  | ok p =>
    rw [parse_of_ok hsplit] at h
    obtain ⟨hframed, hbody⟩ := framed_of_splitLine_ok hsplit
    exact ⟨hframed, p, hbody, h⟩

end Checks

/-! ### Check 5: the tag, and for an update the colon and the field code (40 R137, R141) -/

theorem splitBody_unknownTag {body : List Byte} (hG : body.head? ≠ some chG) (hU : body.head? ≠ some chU) :
    splitBody body = .error .txtUnknownTag := by
  cases body with
  | nil => rfl
  | cons tag rest =>
    simp only [List.head?_cons, ne_eq, Option.some_inj] at hG hU
    simp [splitBody, hG, hU]

theorem breakColon_append {code : List Byte} (h : chColon ∉ code) (val : List Byte) :
    breakColon (code ++ chColon :: val) = some (code, val) := by
  induction code with
  | nil => rfl
  | cons b code ih =>
    obtain ⟨hb, hcode⟩ := List.ne_and_not_mem_of_not_mem_cons h
    simp [breakColon, hb.symm, ih hcode]

theorem breakColon_eq_none {l : List Byte} (h : chColon ∉ l) : breakColon l = none := by
  induction l with
  | nil => rfl
  | cons b l ih =>
    obtain ⟨hb, hl⟩ := List.ne_and_not_mem_of_not_mem_cons h
    simp [breakColon, hb.symm, ih hl]

theorem kindOfCode_eq_none {code : List Byte}
    (h : code ∉ [[chB], [chL, chX], [chL, chY], [chR, chX], [chR, chY], [chL, chT], [chR, chT]]) : kindOfCode code = none := by
  simp only [List.mem_cons, List.not_mem_nil, or_false, not_or] at h
  simp [kindOfCode, h]

theorem chU_ne_chG : chU ≠ chG := by decide

theorem splitBody_withoutColon {rest : List Byte} (h : chColon ∉ rest) : splitBody (chU :: rest) = .error .txtMalformedField := by
  simp [splitBody, chU_ne_chG, breakColon_eq_none h]

theorem splitBody_unknownFieldCode {code : List Byte} (h : chColon ∉ code)
    (hcode : code ∉ [[chB], [chL, chX], [chL, chY], [chR, chX], [chR, chY], [chL, chT], [chR, chT]]) (val : List Byte) :
    splitBody (chU :: (code ++ chColon :: val)) = .error .txtUnknownFieldCode := by
  simp [splitBody, chU_ne_chG, breakColon_append h, kindOfCode_eq_none hcode]

/-! ### Check 6: the operand of an update (40 R142 to R148) -/

section Updates

variable {s : State} {val : List Byte} {c : RejectCode} (hp : s.cfg.protocol = .text)
include hp

theorem stickRows_of_error (h : parseStick val = .error c) :
    exec (.txtULX val) s = .next (afterReject .text c s) ∧ exec (.txtULY val) s = .next (afterReject .text c s) ∧
      exec (.txtURX val) s = .next (afterReject .text c s) ∧ exec (.txtURY val) s = .next (afterReject .text c s) :=
  ⟨textRow_of_error (k := .lx) hp (congrArg (Except.map _) h), textRow_of_error (k := .ly) hp (congrArg (Except.map _) h),
    textRow_of_error (k := .rx) hp (congrArg (Except.map _) h), textRow_of_error (k := .ry) hp (congrArg (Except.map _) h)⟩

theorem triggerRows_of_error (h : parseTrigger val = .error c) :
    exec (.txtULT val) s = .next (afterReject .text c s) ∧ exec (.txtURT val) s = .next (afterReject .text c s) :=
  ⟨textRow_of_error (k := .lt) hp (congrArg (Except.map _) h), textRow_of_error (k := .rt) hp (congrArg (Except.map _) h)⟩

end Updates

/-- Settles O21: each check of a line after those before it, then the operand of each update. -/
theorem linesAndUpdatesReject : Obligations.LinesAndUpdatesReject := by
  refine ⟨fun line => ⟨fun hlf => parse_of_error (splitLine_missingNewline hlf), fun hn hlf =>
    ⟨fun hstar => parse_of_error (splitLine_missingStar hn hlf hstar), fun hsize hstar =>
      ⟨fun hdigits => parse_of_error (splitLine_badChecksumField hsize hlf hstar hdigits), fun h1 h0 hh1 hh0 => ?_⟩⟩⟩, ?_⟩
  · have hsplit := splitLine_of_framed ⟨hsize, hlf, hstar, h1, h0, hh1, hh0, rfl⟩
    refine ⟨fun hsum => parse_of_error (hsplit.trans (if_neg hsum)), fun hsum => ?_⟩
    have body_error : ∀ {c : RejectCode} {body : List Byte}, line.take (line.length - 4) = body → splitBody body = .error c →
        parse line = .error c := fun hbody h => parse_of_error (hsplit.trans ((if_pos hsum).trans (hbody ▸ h)))
    exact ⟨fun hG hU => body_error rfl (splitBody_unknownTag hG hU),
      fun rest hbody hcolon => body_error hbody (splitBody_withoutColon hcolon),
      fun code val hbody hcolon hcode => body_error hbody (splitBody_unknownFieldCode hcolon hcode val)⟩
  · intro s val hp
    refine ⟨fun hval => textRow_of_error (k := .b) hp (congrArg (Except.map _) (parseButtons_malformed hval)), fun hval => ?_,
      fun v hval hv => stickRows_of_error hp (parseStick_outOfRange hval hv),
      fun v hval hv => triggerRows_of_error hp (parseTrigger_outOfRange hval hv)⟩
    obtain ⟨hlx, hly, hrx, hry⟩ := stickRows_of_error hp (parseStick_malformed hval)
    exact ⟨hlx, hly, hrx, hry, triggerRows_of_error hp (parseTrigger_malformed hval)⟩

/-! ### One changed byte (40 R158) -/

theorem byteAt_set_other {l : List Byte} {i k : Nat} (h : i ≠ k) (b : Byte) : byteAt (l.set i b) k = byteAt l k := by
  simp [byteAt, List.getElem?_set_ne h]

/-- A change before the star leaves the star, the checksum digits and the newline. -/
theorem Framed.set {line : List Byte} {sum i : Nat} (h : Framed line sum) (hi : i + 4 < line.length) (b : Byte) :
    Framed (line.set i b) sum := by
  obtain ⟨hsize, hlf, hstar, hdigits⟩ := h
  constructor <;> rw [List.length_set]
  · exact hsize
  · rwa [byteAt_set_other (by omega)]
  · rwa [byteAt_set_other (by omega)]
  · rwa [byteAt_set_other (by omega), byteAt_set_other (by omega)]

theorem parse_set_before_star {line : List Byte} {m : LineMsg} {i : Nat} {b : Byte} (h : parse line = .ok m)
    (hi : i + 4 < line.length) (hb : b ≠ byteAt line i) : parse (line.set i b) = .error .txtChecksumMismatch := by
  obtain ⟨hframed, -⟩ := framed_of_parse_ok h
  have hat : byteAt (line.take (line.length - 4)) i = byteAt line i := by
    rw [byteAt, byteAt, List.getD_eq_getElem?_getD, List.getD_eq_getElem?_getD, List.getElem?_take_of_lt (by omega)]
  have hsum : xor8 ((line.take (line.length - 4)).set i b) ≠ xor8 (line.take (line.length - 4)) :=
    xor8_set_ne (by rw [List.length_take]; omega) (hat ▸ hb)
  refine parse_of_error ((splitLine_of_framed (hframed.set hi b)).trans (if_neg ?_))
  rw [List.length_set, List.take_set]
  exact fun heq => hsum (BitVec.eq_of_toNat_eq heq)

/-- Settles O23: a change before the star breaks the checksum, and a line with the body of an accepted one has its message. -/
theorem changedByteNeverGivesAnotherValue : Obligations.ChangedByteNeverGivesAnotherValue := by
  intro line m i b hline _ hb
  refine ⟨fun hi => parse_set_before_star hline hi hb, fun m' hset => ?_⟩
  rcases Nat.lt_or_ge (i + 4) line.length with hi | hi
  · rw [parse_set_before_star hline hi hb] at hset
    cases hset
  · obtain ⟨-, p, hbody, hvalue⟩ := framed_of_parse_ok hline
    obtain ⟨-, p', hbody', hvalue'⟩ := framed_of_parse_ok hset
    rw [List.length_set, List.take_set_of_le (by omega)] at hbody'
    obtain rfl : p' = p := Except.ok.inj (hbody'.symm.trans hbody)
    exact Except.ok.inj (hvalue'.symm.trans hvalue)

end Sys2Proof.Machine
end

section
/-! The text serializers (family 40_text_parser; 40 R154 to R158): a number written in decimal or hexadecimal reads back, with bounded
length, so a serialized line fits its buffer and parses to what it was made from. -/

namespace Sys2Proof.Machine

/-! ### Decimal numbers (40 R154, R138) -/

theorem decVal_decDigit {n : Nat} (h : n < 10) : decVal (decDigit n) = some n := by
  revert n
  decide

theorem decDigits_eq_of_lt {n : Nat} (h : n < 10) (fuel : Nat) (acc : List Byte) : decDigits (fuel + 1) n acc = decDigit n :: acc :=
  if_pos h

theorem decDigits_eq_of_le {n : Nat} (h : 10 ≤ n) (fuel : Nat) (acc : List Byte) :
    decDigits (fuel + 1) n acc = decDigits fuel (n / 10) (decDigit (n % 10) :: acc) :=
  if_neg (not_lt.2 h)

/-- Reading the digits of `n` is going on after `n` with the digits behind them. -/
theorem digitsVal_decDigits {fuel n : Nat} (h : n < fuel) (acc : List Byte) :
    digitsVal 0 (decDigits fuel n acc) = digitsVal n acc := by
  induction fuel generalizing n acc with
  | zero => exact absurd h (Nat.not_lt_zero n)
  | succ fuel ih =>
    rcases Nat.lt_or_ge n 10 with hn | hn
    · simp [decDigits_eq_of_lt hn, digitsVal, decVal_decDigit hn]
    · rw [decDigits_eq_of_le hn, ih (by omega), digitsVal, decVal_decDigit (by omega)]
      simp [Nat.div_add_mod]

theorem mem_decDigits {fuel n : Nat} {acc : List Byte} {b : Byte} (h : b ∈ decDigits fuel n acc) :
    (∃ d < 10, b = decDigit d) ∨ b ∈ acc := by
  induction fuel generalizing n acc with
  | zero => exact .inr h
  | succ fuel ih =>
    rcases Nat.lt_or_ge n 10 with hn | hn
    · rw [decDigits_eq_of_lt hn] at h
      exact (List.mem_cons.1 h).imp (fun h => ⟨n, hn, h⟩) id
    · rw [decDigits_eq_of_le hn] at h
      rcases ih h with hd | hacc
      · exact .inl hd
      · exact (List.mem_cons.1 hacc).imp (fun h => ⟨n % 10, by omega, h⟩) id

theorem decDigits_length_le {fuel n k : Nat} (h : n < 10 ^ (k + 1)) (acc : List Byte) :
    (decDigits fuel n acc).length ≤ acc.length + (k + 1) := by
  induction fuel generalizing n k acc with
  | zero => exact Nat.le_add_right _ _
  | succ fuel ih =>
    rcases Nat.lt_or_ge n 10 with hn | hn
    · rw [decDigits_eq_of_lt hn, List.length_cons]
      omega
    · obtain ⟨k, rfl⟩ : ∃ j, k = j + 1 := Nat.exists_eq_succ_of_ne_zero (by rintro rfl; omega)
      rw [decDigits_eq_of_le hn]
      have hdiv : n / 10 < 10 ^ (k + 1) := Nat.div_lt_of_lt_mul (by rw [← pow_succ']; exact h)
      have hle := ih hdiv (decDigit (n % 10) :: acc)
      rw [List.length_cons] at hle
      omega

theorem digitsVal_decNat (n : Nat) : digitsVal 0 (decNat n) = some n := digitsVal_decDigits (Nat.lt_succ_self n) []

theorem mem_decNat {n : Nat} {b : Byte} (h : b ∈ decNat n) : ∃ d < 10, b = decDigit d :=
  (mem_decDigits h).resolve_right List.not_mem_nil

theorem decNat_length_le {n k : Nat} (h : n < 10 ^ (k + 1)) : (decNat n).length ≤ k + 1 :=
  (decDigits_length_le h []).trans_eq (Nat.zero_add _)

/-- The empty sequence reads as 0, and 0 is written with a digit. -/
theorem decNat_ne_nil (n : Nat) : decNat n ≠ [] := fun hnil => by
  have hval := digitsVal_decNat n
  rw [hnil] at hval
  obtain rfl : 0 = n := Option.some_inj.1 hval
  exact absurd hnil (by decide)

/-- No decimal digit is a sign, a colon or a newline. -/
theorem not_mem_decNat {c : Byte} (hc : ∀ d < 10, c ≠ decDigit d) (n : Nat) : c ∉ decNat n := fun h => by
  obtain ⟨d, hd, heq⟩ := mem_decNat h
  exact hc d hd heq

theorem parseDec_of_unsigned {l : List Byte} (hl : l ≠ []) (h : chMinus ∉ l) :
    parseDec l = (digitsVal 0 l).map fun m => (m : Int) := by
  cases l with
  | nil => exact absurd rfl hl
  | cons b s => exact if_neg (List.ne_and_not_mem_of_not_mem_cons h).1.symm

theorem parseDec_decNat (n : Nat) : parseDec (decNat n) = some (n : Int) := by
  rw [parseDec_of_unsigned (decNat_ne_nil n) (not_mem_decNat (by decide) n), digitsVal_decNat]
  rfl

theorem parseDec_decInt (v : Int) : parseDec (decInt v) = some v := by
  unfold decInt
  split
  next hneg => simp [parseDec, decNat_ne_nil, digitsVal_decNat, abs_of_neg hneg]
  next hneg => rw [parseDec_decNat, Int.natAbs_of_nonneg (not_lt.1 hneg)]

theorem not_mem_decInt {c : Byte} (hminus : c ≠ chMinus) (hc : ∀ d < 10, c ≠ decDigit d) (v : Int) : c ∉ decInt v := by
  unfold decInt
  split
  · exact List.not_mem_cons_of_ne_of_not_mem hminus (not_mem_decNat hc _)
  · exact not_mem_decNat hc _

theorem decInt_length_le (v : Half) : (decInt v.toInt).length ≤ 6 := by
  have hlo := v.le_toInt
  have hhi := v.toInt_lt
  have hdigits : (decNat v.toInt.natAbs).length ≤ 5 := decNat_length_le (by omega)
  unfold decInt
  split
  · rw [List.length_cons]; omega
  · omega

theorem decNat_byte_length_le (v : Byte) : (decNat v.toNat).length ≤ 3 := decNat_length_le (by omega)

/-! ### Hexadecimal numbers (40 R154, R139) -/

theorem parseHex4_hex4 (v : Half) : parseHex4 (hex4 v) = some v.toNat := by
  simp only [parseHex4, hex4]
  rw [hexVal_hexDigit (by omega), hexVal_hexDigit (by omega), hexVal_hexDigit (by omega), hexVal_hexDigit (by omega)]
  simp only [Option.some_inj]
  omega

theorem not_mem_hex4 {c : Byte} (hc : ∀ d < 16, c ≠ hexDigit d) (v : Half) : c ∉ hex4 v := by
  simp only [hex4, List.mem_cons, List.not_mem_nil, or_false, not_or]
  exact ⟨hc _ (by omega), hc _ (by omega), hc _ (by omega), hc _ (by omega)⟩

theorem hex4_length (v : Half) : (hex4 v).length = 4 := rfl

theorem not_mem_hex2 {c : Byte} (hc : ∀ d < 16, c ≠ hexDigit d) (v : Byte) : c ∉ hex2 v := by
  simp only [hex2, List.mem_cons, List.not_mem_nil, or_false, not_or]
  exact ⟨hc _ (by omega), hc _ (by omega)⟩

/-! ### The fields of a full-state line (40 R140, R154) -/

theorem splitFields_append {f : List Byte} (h : chColon ∉ f) (rest : List Byte) :
    splitFields (f ++ chColon :: rest) = f :: splitFields rest := by
  induction f with
  | nil => rfl
  | cons b f ih =>
    obtain ⟨hb, hf⟩ := List.ne_and_not_mem_of_not_mem_cons h
    simp [splitFields, hb.symm, ih hf]

theorem splitFields_single {f : List Byte} (h : chColon ∉ f) : splitFields f = [f] := by
  induction f with
  | nil => rfl
  | cons b f ih =>
    obtain ⟨hb, hf⟩ := List.ne_and_not_mem_of_not_mem_cons h
    simp [splitFields, hb.symm, ih hf]

theorem colon_not_mem_decNat (n : Nat) : chColon ∉ decNat n := not_mem_decNat (by decide) n

theorem colon_not_mem_decInt (v : Int) : chColon ∉ decInt v := not_mem_decInt (by decide) (by decide) v

theorem colon_not_mem_hex4 (v : Half) : chColon ∉ hex4 v := not_mem_hex4 (by decide) v

theorem splitFields_fullOperand (g : GamepadState) : splitFields (fullOperand g) =
    [hex4 g.buttons, decInt g.lx.toInt, decInt g.ly.toInt, decInt g.rx.toInt, decInt g.ry.toInt, decNat g.lt.toNat,
      decNat g.rt.toNat] := by
  simp only [fullOperand, List.append_assoc, List.cons_append, List.nil_append, splitFields_append (colon_not_mem_hex4 _),
    splitFields_append (colon_not_mem_decInt _), splitFields_append (colon_not_mem_decNat _),
    splitFields_single (colon_not_mem_decNat _)]

theorem fullReads_fullOperand (g : GamepadState) : FullReads (fullOperand g) g.buttons.toNat g.lx.toInt g.ly.toInt g.rx.toInt
    g.ry.toInt g.lt.toNat g.rt.toNat :=
  ⟨_, _, _, _, _, _, _, splitFields_fullOperand g, parseHex4_hex4 _, parseDec_decInt _, parseDec_decInt _, parseDec_decInt _,
    parseDec_decInt _, parseDec_decNat _, parseDec_decNat _⟩

theorem parseFull_fullOperand (g : GamepadState) : parseFull (fullOperand g) = .ok g := by
  rw [parseFull_of_reads (fullReads_fullOperand g)]
  simp only [stickInRange_toInt, triggerInRange_toNat, Bool.and_self, if_true, ofInt_toNat, BitVec.ofInt_toInt, BitVec.ofNat_toNat,
    BitVec.setWidth_eq]

/-! ### Round trip (40 R158 (a)) -/

theorem parse_lineOf {body operand : List Byte} {k : LineKind} (h : splitBody body = .ok (k, operand)) :
    parse (lineOf body) = lineValue k operand :=
  parse_of_ok ((splitLine_lineOf body).trans h)

theorem parse_fullLine (g : GamepadState) : parse (fullLine g) = .ok (.full g) := by
  rw [fullLine, parse_lineOf (k := .full) rfl, lineValue, parseFull_fullOperand]
  rfl

theorem lineValue_updateOperand (u : FieldUpdate) : lineValue (updateKind u) (updateOperand u) = .ok (.update u) := by
  cases u with
  | buttons v => exact congrArg (Except.map _) (parseButtons_of_hex4 (parseHex4_hex4 v))
  | leftStickX v | leftStickY v | rightStickX v | rightStickY v =>
    exact congrArg (Except.map _) (parseStick_of_dec (parseDec_decInt v.toInt))
  | leftTrigger v | rightTrigger v => exact congrArg (Except.map _) (parseTrigger_of_dec (parseDec_decNat v.toNat))

theorem updateKind_ne_full (u : FieldUpdate) : updateKind u ≠ .full := by cases u <;> nofun

theorem parse_updateLine (u : FieldUpdate) : parse (updateLine u) = .ok (.update u) :=
  (parse_lineOf (splitBody_updateBody (updateKind_ne_full u) _)).trans (lineValue_updateOperand u)

/-! ### Sizes (40 R156) -/

theorem fullLine_length_le (g : GamepadState) : (fullLine g).length ≤ 45 := by
  have hlx := decInt_length_le g.lx
  have hly := decInt_length_le g.ly
  have hrx := decInt_length_le g.rx
  have hry := decInt_length_le g.ry
  have hlt := decNat_byte_length_le g.lt
  have hrt := decNat_byte_length_le g.rt
  simp only [fullLine, Laws.lineOf_length, fullOperand, List.length_cons, List.length_append, List.length_nil, hex4_length]
  omega

theorem updateOperand_length_le (u : FieldUpdate) : (updateOperand u).length ≤ 6 := by
  cases u with
  | buttons v => exact (hex4_length v).trans_le (by decide)
  | leftStickX v | leftStickY v | rightStickX v | rightStickY v => exact decInt_length_le v
  | leftTrigger v | rightTrigger v => exact (decNat_byte_length_le v).trans (by decide)

theorem fieldCode_length_le (k : LineKind) : (fieldCode k).length ≤ 2 := by cases k <;> decide

theorem updateLine_length_le (u : FieldUpdate) : (updateLine u).length ≤ 14 := by
  have hval := updateOperand_length_le u
  have hcode := fieldCode_length_le (updateKind u)
  rw [updateLine, Laws.lineOf_length, Laws.updateBody_length]
  omega

theorem fitted_of_le {out : List Byte} {cap : Nat} (h : out.length ≤ cap) : fitted out cap = .written out := if_neg (not_lt.2 h)

theorem fitted_of_lt {out : List Byte} {cap : Nat} (h : cap < out.length) : fitted out cap = .bufferTooSmall := if_pos h

/-- Settles O24: the buffer check compares with the whole line, whose size is bounded by those of its fields. -/
theorem serializersNeverTruncate : Obligations.SerializersNeverTruncate := fun g u _ =>
  ⟨fitted_of_lt, fitted_of_le, fitted_of_lt, fitted_of_le, fullLine_length_le g, updateLine_length_le u⟩

/-- Settles O22: the line fits, and every field of it reads back. -/
theorem serializedLinesParseBack : Obligations.SerializedLinesParseBack :=
  ⟨fun g => ⟨fullLine g, fitted_of_le (fullLine_length_le g), parse_fullLine g⟩,
    fun u => ⟨updateLine u, fitted_of_le (updateLine_length_le u), parse_updateLine u⟩⟩

/-! ### A line on the wire (40 R149 to R152; 45 R305) -/

/-- The framer has collected these bytes of a line that fits. -/
structure TxtHolds (bytes : List Byte) (r : TxtRegs) : Prop where
  idx : r.idx = bytes.length
  ovf : r.ovf = false
  bytes : r.buf.readRange 0 bytes.length = bytes

section Wire

variable {c : Config} (hp : c.protocol = .text)
include hp

theorem exec_inRx_text {s : State} (hs : s.cfg = c) (b : Byte) :
    exec (.inRx b) s = if b = chLf then execTxtLf s else execTxtByte b s := by
  subst hs
  change execInRx b s = _
  simp only [execInRx, hp]

theorem receives_txtByte {bytes : List Byte} {b : Byte} (hb : b ≠ chLf) (hroom : bytes.length < c.textLineMax - 1) :
    Receives c (fun s => TxtHolds bytes s.txt) [b] (fun t => TxtHolds (bytes ++ [b]) t.txt) :=
  .byte fun s hinv hcfg ⟨hidx, hovf, hbytes⟩ => by
    rw [exec_inRx_text hp hcfg, if_neg hb]
    subst hcfg
    refine ⟨_, execTxtByte_stores hp hb (hidx ▸ hroom), ?_, hovf, ?_⟩
    · simp [hidx]
    · rw [State.setTxt_txt, hidx]
      exact Memory.readRange_write_end hinv.txtBuf.1 hbytes b

theorem receives_txtBytes {l bytes : List Byte} (hl : chLf ∉ l) (hroom : bytes.length + l.length ≤ c.textLineMax - 1) :
    Receives c (fun s => TxtHolds bytes s.txt) l (fun t => TxtHolds (bytes ++ l) t.txt) := by
  induction l generalizing bytes with
  | nil => rw [List.append_nil]; exact .refl
  | cons b l ih =>
    obtain ⟨hb, hl⟩ := List.ne_and_not_mem_of_not_mem_cons hl
    rw [List.length_cons] at hroom
    have hrest := ih (bytes := bytes ++ [b]) hl (by rw [List.length_append, List.length_singleton]; omega)
    rw [← List.append_cons] at hrest
    exact (receives_txtByte hp hb.symm (by omega)).append hrest

/-- The newline behind the collected bytes ends the line in the emptied buffer. -/
theorem receives_txtLf {bytes : List Byte} (hsize : bytes.length ≤ c.textLineMax - 1) {m : LineMsg}
    (hparse : parse (bytes ++ [chLf]) = .ok m) {Q : State → Prop}
    (hQ : ∀ u : State, u.txt.idx = 0 → u.txt.ovf = false → Q (afterLine (heldAfter u.txt.held m) (lineEvent m) u)) :
    Receives c (fun s => TxtHolds bytes s.txt) [chLf] Q :=
  .byte fun s _ hcfg ⟨hidx, hovf, hbytes⟩ => by
    rw [exec_inRx_text hp hcfg, if_pos rfl]
    subst hcfg
    rw [execTxtLf_parses hp (by omega) hovf, hidx, hbytes, hparse, finishLine_eq]
    exact ⟨_, rfl, hQ _ rfl hovf⟩

/-- A line that fits and is accepted, sent from an empty buffer on, ends as its message says. -/
theorem receives_line {l : List Byte} (hl : chLf ∉ l) (hsize : l.length ≤ c.textLineMax - 1) {m : LineMsg}
    (hparse : parse (l ++ [chLf]) = .ok m) {Q : State → Prop}
    (hQ : ∀ u : State, u.txt.idx = 0 → u.txt.ovf = false → Q (afterLine (heldAfter u.txt.held m) (lineEvent m) u)) :
    Receives c (fun s => TxtHolds [] s.txt) (l ++ [chLf]) Q :=
  (receives_txtBytes hp hl (by simpa using hsize)).append (receives_txtLf hp hsize hparse hQ)

end Wire

/-- The canonical line without its newline. -/
def fullLineBytes (g : GamepadState) : List Byte :=
  chG :: fullOperand g ++ [chStar] ++ hex2 (xor8 (chG :: fullOperand g))

theorem fullLine_eq (g : GamepadState) : fullLine g = fullLineBytes g ++ [chLf] := rfl

theorem lf_not_mem_fullLineBytes (g : GamepadState) : chLf ∉ fullLineBytes g := by
  have hint : ∀ v : Int, chLf ∉ decInt v := not_mem_decInt (by decide) (by decide)
  have hnat : ∀ n : Nat, chLf ∉ decNat n := not_mem_decNat (by decide)
  have hhex4 : ∀ v : Half, chLf ∉ hex4 v := not_mem_hex4 (by decide)
  have hhex2 : ∀ v : Byte, chLf ∉ hex2 v := not_mem_hex2 (by decide)
  have hG : chLf ≠ chG := by decide
  have hcolon : chLf ≠ chColon := by decide
  have hstar : chLf ≠ chStar := by decide
  simp [fullLineBytes, fullOperand, hint, hnat, hhex4, hhex2, hG, hcolon, hstar]

/-- Settles O25: the line without its newline fits the smallest buffer, and what it parses to is published. -/
theorem textLineOnTheWirePublishes : Obligations.TextLineOnTheWirePublishes := by
  intro s rest g hinv hp hidx hovf hinbox
  obtain ⟨-, -, -, hmax, -, -⟩ := hinv.cfg
  have hsize := fullLine_length_le g
  rw [fullLine_eq, List.length_append, List.length_singleton] at hsize
  have hline := receives_line hp (lf_not_mem_fullLineBytes g) (by omega) (parse_fullLine g)
    (Q := fun t => t.txt.idx = 0 ∧ t.txt.ovf = false ∧ t.txt.held = g ∧ t.mbox = ⟨g, true⟩ ∧ t.pulses.evt = some (.fullState g))
    fun u hu0 huovf => ⟨hu0, huovf, rfl, rfl, rfl⟩
  obtain ⟨t, hrun, hkeeps, ht0, htovf, hheld, hmbox, hevt⟩ := hline s rest hinv rfl hinbox ⟨hidx, hovf, rfl⟩
  exact ⟨t, hrun, hkeeps.inbox, ht0, htovf, hheld, hmbox, hevt, hkeeps.out⟩

end Sys2Proof.Machine
end

section
/-! The CRSF framer (family 41_crsf_framer; 41 R171 to R183, 43 R238 to R240): its rows one by one, that a frame ends after the bytes it
declares, and what the two CRCs detect. -/

namespace Sys2Proof.Machine

/-! ### The two CRCs (41 R176, R177; 43 R238 to R240) -/

theorem repeat_injective {α : Type} {f : α → α} (hf : f.Injective) (n : Nat) : (Nat.repeat f n).Injective := by
  induction n with
  | zero => exact fun _ _ h => h
  | succ n ih => exact fun _ _ h => ih (hf h)

/-- A shift that feeds the lost bit back through a polynomial is injective when the result still shows that bit at some place, and the
shifted word and the lost bit together determine the word. -/
theorem feedback_injective {w : Nat} {lost : BitVec w → Bool} {shift : BitVec w → BitVec w} {poly : BitVec w} {place : Nat}
    (hshown : ∀ c, (if lost c then shift c ^^^ poly else shift c).getLsbD place = lost c)
    (hdet : ∀ c d, lost c = lost d → shift c = shift d → c = d) :
    (fun c => if lost c then shift c ^^^ poly else shift c).Injective := by
  intro c d h
  have hlost : lost c = lost d := by rw [← hshown c, ← hshown d]; exact congrArg (BitVec.getLsbD · place) h
  refine hdet c d hlost ?_
  simp only [hlost] at h
  split at h
  · exact (BitVec.xor_left_inj poly).1 h
  · exact h

/-- The bit the CRC-8 loses at the top is seen in bit 0, where its polynomial has a 1. -/
theorem crc8Shift_injective : crc8Shift.Injective := by
  refine feedback_injective (place := 0) (fun c => ?_) fun c d hmsb hshift => BitVec.eq_of_getLsbD_eq fun i hi => ?_
  · cases c.msb <;> simp
  · by_cases hlast : i = 7
    · simpa [hlast, BitVec.msb_eq_getLsbD_last] using hmsb
    · simpa [show i + 1 < 8 by omega, ← BitVec.getLsbD_eq_getElem] using congrArg (BitVec.getLsbD · (i + 1)) hshift

/-- The bit the CRC-16 loses at the bottom is seen in bit 15, where its reflected polynomial has a 1. -/
theorem crc16Shift_injective : crc16Shift.Injective := by
  refine feedback_injective (place := 15) (fun c => ?_) fun c d hlsb hshift => BitVec.eq_of_getLsbD_eq fun i hi => ?_
  · cases c.getLsbD 0 <;> simp
  · cases i with
    | zero => exact hlsb
    | succ i => simpa [Nat.add_comm] using congrArg (BitVec.getLsbD · i) hshift

theorem crc8_append (l : List Byte) (b : Byte) : crc8 (l ++ [b]) = crc8Update (crc8 l) b := by
  simp [crc8]

theorem crc16_append (l l' : List Byte) : crc16 (l ++ l') = l'.foldl crc16Update (crc16 l) := List.foldl_append

theorem crc8_append_eq_zero_iff (l : List Byte) (b : Byte) : crc8 (l ++ [b]) = 0 ↔ b = crc8 l := by
  have hzero : Nat.repeat crc8Shift 8 0 = 0 := by decide
  calc crc8 (l ++ [b]) = 0
    _ ↔ Nat.repeat crc8Shift 8 (crc8 l ^^^ b) = 0 := by rw [crc8_append, crc8Update]
    _ ↔ crc8 l ^^^ b = 0 := (repeat_injective crc8Shift_injective 8).eq_iff' hzero
    _ ↔ b = crc8 l := BitVec.xor_eq_zero_iff.trans eq_comm

theorem crc8_replicate_zero (n : Nat) : crc8 (List.replicate n 0) = 0 := by
  induction n with
  | zero => rfl
  | succ n ih => rw [List.replicate_succ', crc8_append_eq_zero_iff, ih]

/-- A byte does not reach bit 15 by being shifted, so shifting it back loses nothing. -/
theorem byte_shiftLeft_succ_ushiftRight (b : Byte) {m : Nat} (hm : m ≤ 7) :
    (b.setWidth 16 <<< (m + 1) : Half) >>> 1 = b.setWidth 16 <<< m := by
  refine BitVec.eq_of_getLsbD_eq fun i hi => ?_
  have hplace : 1 + i - (m + 1) = i - m := by omega
  have hbelow : 1 + i < m + 1 ↔ i < m := by omega
  by_cases hlast : i = 15
  · simp [hlast, BitVec.getLsbD_of_ge b (15 - m) (by omega)]
  · have hin : 1 + i < 16 := by omega
    simp only [BitVec.getLsbD_ushiftRight, BitVec.getLsbD_shiftLeft, hplace, hbelow, hin, hi]

/-- A byte in the high half comes down as it is, since no 1 is shifted out on the way. -/
theorem repeat_crc16Shift_highByte (b : Byte) {n : Nat} (hn : n ≤ 8) :
    Nat.repeat crc16Shift n (b.setWidth 16 <<< 8) = b.setWidth 16 <<< (8 - n) := by
  induction n with
  | zero => rfl
  | succ n ih =>
    have hleft : 8 - n = 8 - (n + 1) + 1 := by omega
    rw [Nat.repeat, ih (by omega), hleft, crc16Shift, if_neg (by simp), byte_shiftLeft_succ_ushiftRight b (by omega)]

/-- The halves of a word do not overlap. -/
theorem append_eq_xor (hi lo : Byte) : (hi ++ lo : Half) = hi.setWidth 16 <<< 8 ^^^ lo.setWidth 16 := by
  refine BitVec.eq_of_getLsbD_eq fun i h => ?_
  rw [BitVec.getLsbD_append]
  by_cases hlow : i < 8
  · simp [hlow, h]
  · simp [hlow, h, BitVec.getLsbD_of_ge lo i (by omega)]

/-- The bytes of the CRC itself cancel it, low byte first: what is left of it after the first is the second. -/
theorem crc16_append_eq_zero_iff (l : List Byte) (lo hi : Byte) : crc16 (l ++ [lo, hi]) = 0 ↔ hi ++ lo = crc16 l := by
  have hinj := repeat_injective crc16Shift_injective 8
  have hzero : Nat.repeat crc16Shift 8 0 = 0 := by decide
  have hhigh := repeat_crc16Shift_highByte hi (le_refl 8)
  rw [Nat.sub_self, BitVec.shiftLeft_zero] at hhigh
  calc crc16 (l ++ [lo, hi]) = 0
    _ ↔ Nat.repeat crc16Shift 8 (Nat.repeat crc16Shift 8 (crc16 l ^^^ lo.setWidth 16) ^^^ hi.setWidth 16) = 0 := by
      rw [crc16_append]; rfl
    _ ↔ Nat.repeat crc16Shift 8 (crc16 l ^^^ lo.setWidth 16) = hi.setWidth 16 :=
      (hinj.eq_iff' hzero).trans BitVec.xor_eq_zero_iff
    _ ↔ crc16 l ^^^ lo.setWidth 16 = hi.setWidth 16 <<< 8 := hinj.eq_iff' hhigh
    _ ↔ hi ++ lo = crc16 l := by
      rw [append_eq_xor, ← BitVec.xor_left_inj (lo.setWidth 16), BitVec.xor_assoc, BitVec.xor_self, BitVec.xor_zero, eq_comm]

theorem frameCrc_eq (coversLen : Bool) (len e : Byte) (hdr pay : List Byte) :
    frameCrc coversLen len hdr pay e = crc16 (if coversLen then len :: (hdr ++ pay ++ [e]) else hdr ++ pay ++ [e]) := by
  cases coversLen <;> rfl

/-- The digits "123456789", on which CRCs are checked. -/
def checkDigits : List Byte := [0x31, 0x32, 0x33, 0x34, 0x35, 0x36, 0x37, 0x38, 0x39]

theorem crc8_checkValues : crc8 checkDigits = 0xBC ∧
    crc8 [0x01] = 0xD5 ∧ crc8 [0x80] = 0xEF ∧ crc8 [0xFF] = 0xF9 ∧ crc8 [0x16] = 0xD3 := by decide +kernel

theorem crc16_checkValues : crc16 checkDigits = 0x6F91 ∧
    crc16 [0x00] = 0x0F87 ∧ crc16 [0x01] = 0x1E0E ∧ crc16 [0x80] = 0x8B8F ∧ crc16 [0xFF] = 0x00FF := by decide +kernel

/-- Settles O34: either CRC's shift is injective, so only its own bytes cancel a CRC; the fixed cases are computed. -/
theorem crcsDetectAndMatchTheirCheckValues : Obligations.CrcsDetectAndMatchTheirCheckValues := by
  obtain ⟨h8digits, h8lsb, h8msb, h8ones, h8rc⟩ := crc8_checkValues
  obtain ⟨h16digits, h16zero, h16lsb, h16msb, h16ones⟩ := crc16_checkValues
  exact ⟨crc8_append_eq_zero_iff, crc8_replicate_zero, h8digits, h8lsb, h8msb, h8ones, h8rc, crc16_append_eq_zero_iff, rfl,
    h16digits, h16zero, h16lsb, h16msb, h16ones,
    fun len e hdr pay => ⟨frameCrc_eq false len e hdr pay, frameCrc_eq true len e hdr pay⟩⟩

/-! ### The scan and the length byte (41 R171 to R175) -/

/-- Settles O26: both rows are written out. -/
theorem crsfScanRows : Obligations.CrsfScanRows := fun _ _ hp hst =>
  ⟨execCrsfSync_next (crsfIn_eq_true.2 ⟨hp, hst⟩), fun _ => rfl⟩

section Rows

variable {s : State} {b : Byte}

theorem execCrsfLen_over (hin : crsfIn s .awaitLength = true) (hb : s.cfg.crsfMaxLen < b.toNat) :
    execCrsfLen b s = .next (afterReject .crsf .crsfOverLength s) := by
  rw [execCrsfLen, if_pos hin, if_pos hb, raiseReject_eq]

theorem execCrsfLen_under (hin : crsfIn s .awaitLength = true) (hmax : b.toNat ≤ s.cfg.crsfMaxLen) (hb : b.toNat < 2) :
    execCrsfLen b s = .next (afterReject .crsf .crsfUnderLength s) := by
  rw [execCrsfLen, if_pos hin, if_neg (not_lt.2 hmax), if_pos hb, raiseReject_eq]

end Rows

/-- Settles O27: the three lengths exclude each other, as the maximum is at least 2. -/
theorem crsfLengthRow : Obligations.CrsfLengthRow := fun _ _ hp hst hmax =>
  have hin := crsfIn_eq_true.2 ⟨hp, hst⟩
  ⟨execCrsfLen_next hin, execCrsfLen_over hin, fun hb => execCrsfLen_under hin (by omega) hb⟩

/-! ### Type and payload (41 R178) -/

/-- Settles O28: the last byte of type and payload is the one after which only the CRC is missing. -/
theorem crsfAccumulateRow : Obligations.CrsfAccumulateRow := by
  intro b s hp hst hwf hroom
  have hlast : s.crsf.idx.toNat + 1 = s.crsf.len.toNat - 1 ↔ s.crsf.idx.toNat + 2 = s.crsf.len.toNat := by omega
  refine ⟨_, execCrsfAcc_next (crsfIn_eq_true.2 ⟨hp, hst⟩) hroom, fun a => Memory.read_write hwf _ a b, rfl, rfl, ?_, rfl⟩
  simp only [State.setCrsf_crsf, hlast, hst]

/-! ### The CRC byte (41 R179, R180) -/

/-- A frame's row is the one its type byte selects. -/
theorem runCrsfFrame_eq_exec (type : Byte) (payload : List Byte) (s : State) :
    runCrsfFrame type payload s = exec (crsfInstr s.cfg type payload) s := by
  unfold runCrsfFrame crsfInstr
  cases crsfClassify s.cfg type <;> rfl

/-- A validated frame completes and leaves a cleared framer as it is: its only reject clears what is cleared. -/
theorem runCrsfFrame_keeps_scan {s : State} {buf : Memory} (hs : s.crsf = ⟨.awaitSync, 0, 0, buf⟩) (type : Byte)
    (payload : List Byte) : ∃ t, runCrsfFrame type payload s = .next t ∧ t.crsf = s.crsf := by
  unfold runCrsfFrame
  cases crsfClassify s.cfg type with
  | rc =>
    simp only [execCrsfRc]
    split
    · split
      · exact ⟨_, rfl, rfl⟩
      · exact ⟨_, rfl, by simp [raiseReject, toScan, hs]⟩
    · exact ⟨_, rfl, rfl⟩
  | telem => simp only [execCrsfTelem]; split <;> exact ⟨_, rfl, rfl⟩
  | unknown => simp only [execCrsfUnknown]; split <;> exact ⟨_, rfl, rfl⟩

/-- CRSF.CRC on a byte that is not the CRC: the byte stands in the array, the frame is rejected (41 R180). -/
theorem execCrsfCrc_mismatch {s : State} {b : Byte} (hin : crsfIn s .awaitCrc = true)
    (hlen : s.crsf.len.toNat - 1 ≤ s.cfg.crsfMaxLen) (hroom : s.crsf.idx.toNat < s.cfg.crsfMaxLen)
    (hb : b ≠ crc8 (s.crsf.buf.readRange 0 (s.crsf.len.toNat - 1))) :
    execCrsfCrc b s = .next (afterReject .crsf .crsfCrcMismatch
      (s.setCrsf { s.crsf with buf := s.crsf.buf.write s.crsf.idx.toNat b })) := by
  rw [execCrsfCrc, if_pos hin, memRead_of_le (b := .crsfBuf) (by simpa using hlen), memWrite_of_lt (b := .crsfBuf) hroom,
    ← raiseReject_eq]
  exact if_neg hb

/-- A range from its first byte on. -/
theorem Memory.readRange_eq_cons (m : Memory) (i n : Nat) : m.readRange i (n + 1) = m.read i :: m.readRange (i + 1) n := rfl

/-- Settles O29: the stored bytes are the type byte and the payload behind it. -/
theorem crsfCrcRow : Obligations.CrsfCrcRow := by
  intro b s hp hst hwf hmin hmax hidx
  have hin := crsfIn_eq_true.2 ⟨hp, hst⟩
  have hplace : ∀ a, a = s.crsf.idx.toNat ↔ a + 1 = s.crsf.len.toNat := by omega
  refine ⟨s.crsf.buf.write s.crsf.idx.toNat b, fun a => ?_, execCrsfCrc_mismatch hin (by omega) (by omega), ?_⟩
  · simp only [Memory.read_write hwf, hplace]
  · intro hb scan row
    have hbody : s.crsf.buf.readRange 0 (s.crsf.len.toNat - 1) =
        s.crsf.buf.read 0 :: s.crsf.buf.readRange 1 (s.crsf.len.toNat - 2) := by
      rw [show s.crsf.len.toNat - 1 = s.crsf.len.toNat - 2 + 1 by omega, Memory.readRange_eq_cons]
    have hrun : exec (.crsfCrc b) s =
        runCrsfFrame (s.crsf.buf.read 0) (s.crsf.buf.readRange 1 (s.crsf.len.toNat - 2)) scan := by
      rw [hbody] at hb
      subst hb
      exact execCrsfCrc_match hin (by omega) (by omega) hbody
    obtain ⟨t, hnext, hscan⟩ := runCrsfFrame_keeps_scan (s := scan) rfl (s.crsf.buf.read 0)
      (s.crsf.buf.readRange 1 (s.crsf.len.toNat - 2))
    exact ⟨hrun.trans (runCrsfFrame_eq_exec _ _ scan), t, hrun.trans hnext, hscan⟩

/-! ### The end of a frame (41 R183) -/

/-- Whatever the CRC byte, the framer scans after it. -/
theorem execCrsfCrc_scans {s : State} (hin : crsfIn s .awaitCrc = true) (hlen : s.crsf.len.toNat - 1 ≤ s.cfg.crsfMaxLen)
    (hroom : s.crsf.idx.toNat < s.cfg.crsfMaxLen) (b : Byte) : ∃ t, execCrsfCrc b s = .next t ∧ t.crsf.st = .awaitSync := by
  by_cases hb : b = crc8 (s.crsf.buf.readRange 0 (s.crsf.len.toNat - 1))
  · rw [hb, execCrsfCrc_match hin hlen hroom rfl]
    obtain ⟨t, hnext, hscan⟩ := runCrsfFrame_keeps_scan (s := toScan .crsf _) rfl _ _
    exact ⟨t, hnext, by rw [hscan]; rfl⟩
  · exact ⟨_, execCrsfCrc_mismatch hin hlen hroom hb, rfl⟩

/-- The frame in progress lacks `k` bytes. -/
def CrsfLacks (k : Nat) (r : CrsfRegs) : Prop := r.idx.toNat + k = r.len.toNat

/-- A framer with the invariant that lacks bytes is inside a frame, and awaits the CRC exactly when that is all it lacks. -/
theorem CrsfLacks.st_eq {s : State} {k : Nat} (h : CrsfLacks (k + 1) s.crsf) (hinv : s.CrsfInv) :
    s.crsf.st = if k = 0 then .awaitCrc else .accumulatePayload := by
  unfold CrsfLacks at h
  cases hst : s.crsf.st with
  | awaitSync =>
    obtain ⟨hlen, hidx⟩ := (State.crsfInv_scan (.inl hst)).1 hinv
    simp [hlen, hidx] at h
  | awaitLength =>
    obtain ⟨hlen, hidx⟩ := (State.crsfInv_scan (.inr hst)).1 hinv
    simp [hlen, hidx] at h
  | accumulatePayload =>
    obtain ⟨-, hidx⟩ := (State.crsfInv_payload hst).1 hinv
    rw [if_neg (by omega)]
  | awaitCrc =>
    obtain ⟨-, hidx⟩ := (State.crsfInv_crc hst).1 hinv
    rw [if_pos (by omega)]

section Frame

variable {c : Config} (hp : c.protocol = .crsf)
include hp

theorem receives_lastByte (b : Byte) : Receives c (fun s => CrsfLacks 1 s.crsf) [b] (fun t => t.crsf.st = .awaitSync) :=
  .byte fun s hinv hcfg hlack => by
    subst hcfg
    have hst := hlack.st_eq hinv.crsf
    obtain ⟨⟨hmin, hmax⟩, hidx⟩ := (State.crsfInv_crc hst).1 hinv.crsf
    have hin := crsfIn_eq_true.2 ⟨hp, hst⟩
    rw [exec_inRx_crsf hin]
    exact execCrsfCrc_scans hin (by omega) (by omega) b

theorem receives_innerByte (k : Nat) (b : Byte) :
    Receives c (fun s => CrsfLacks (k + 2) s.crsf) [b] (fun t => CrsfLacks (k + 1) t.crsf) :=
  .byte fun s hinv hcfg hlack => by
    subst hcfg
    have hst := hlack.st_eq hinv.crsf
    obtain ⟨⟨hmin, hmax⟩, hidx⟩ := (State.crsfInv_payload hst).1 hinv.crsf
    have hin := crsfIn_eq_true.2 ⟨hp, hst⟩
    rw [exec_inRx_crsf hin]
    refine ⟨_, execCrsfAcc_next hin (by omega), ?_⟩
    have hnext : (s.crsf.idx + 1).toNat = s.crsf.idx.toNat + 1 := by bv_omega
    change (s.crsf.idx + 1).toNat + (k + 1) = s.crsf.len.toNat
    unfold CrsfLacks at hlack
    omega

/-- The bytes a frame lacks end it. -/
theorem receives_restOfFrame (l : List Byte) (b : Byte) :
    Receives c (fun s => CrsfLacks (l.length + 1) s.crsf) (b :: l) (fun t => t.crsf.st = .awaitSync) := by
  induction l generalizing b with
  | nil => exact receives_lastByte hp b
  | cons b' l ih => exact (receives_innerByte hp l.length b).append (ih b')

end Frame

/-- Settles O32: a framer inside a frame lacks at least one byte, and the bytes it lacks end the frame. -/
theorem crsfFramerNeverWedges : Obligations.CrsfFramerNeverWedges := by
  intro s rest l hinv hp hst hlack hinbox
  cases l with
  | nil =>
    have hshort : s.crsf.idx.toNat < s.crsf.len.toNat := by
      rcases hst with hst | hst
      · have hidx := ((State.crsfInv_payload hst).1 hinv.crsf).2
        omega
      · have hidx := ((State.crsfInv_crc hst).1 hinv.crsf).2
        omega
    exact absurd hlack (Nat.ne_of_lt hshort)
  | cons b l =>
    obtain ⟨t, hrun, hkeeps, hscan⟩ := receives_restOfFrame hp l b s rest hinv rfl hinbox hlack
    exact ⟨t, hrun, hscan, hkeeps.inbox⟩

end Sys2Proof.Machine
end

section
/-! The packed channels and the frames that carry them (family 42_crsf_decode; 42 R200 to R205, R212; 30 R94, R110): channels and bytes cut
the same bits, a frame's row written out, the telemetry frames. -/

namespace Sys2Proof.Machine

/-! ### Words of one width as an integer (30 R94, 42 R202) -/

/-- The words of a sequence as one integer, the first least significant. -/
def wordsNat {w : Nat} (l : List (BitVec w)) : Nat := Nat.ofDigits (2 ^ w) (l.map BitVec.toNat)

/-- The `n` lowest words of an integer, the least significant first. -/
def cutWords (w n v : Nat) : List (BitVec w) := (List.range n).map fun k => BitVec.ofNat w (v >>> (w * k))

theorem leNat_eq_wordsNat (p : List Byte) : leNat p = wordsNat p := by
  induction p with
  | nil => rfl
  | cons b p ih => rw [leNat, ih]; rfl

theorem packNat_eq_wordsNat (ch : Vector Channel 16) : packNat ch = wordsNat ch.toList := by
  unfold packNat
  induction ch.toList with
  | nil => rfl
  | cons c l ih => rw [List.foldr_cons, ih]; rfl

theorem pack_eq_cutWords (ch : Vector Channel 16) : pack ch = cutWords 8 22 (packNat ch) := rfl

theorem unpack_toList (p : List Byte) : (unpack p).toList = cutWords 11 16 (leNat p) := by
  rw [unpack, Vector.toList_ofFn]
  rfl

theorem cutWords_length (w n v : Nat) : (cutWords w n v).length = n := by simp [cutWords]

section Words

variable {w : Nat}

theorem forall_mem_map_toNat_lt (l : List (BitVec w)) : ∀ d ∈ l.map BitVec.toNat, d < 2 ^ w :=
  List.forall_mem_map.2 fun c _ => c.isLt

theorem wordsNat_lt (hw : 0 < w) (l : List (BitVec w)) : wordsNat l < 2 ^ (w * l.length) := by
  calc wordsNat l
    _ < (2 ^ w) ^ (l.map BitVec.toNat).length :=
      Nat.ofDigits_lt_base_pow_length (Nat.one_lt_two_pow hw.ne') (forall_mem_map_toNat_lt l)
    _ = 2 ^ (w * l.length) := by rw [List.length_map, pow_mul]

theorem wordsNat_inj (hw : 0 < w) {l l' : List (BitVec w)} (hlen : l.length = l'.length) (h : wordsNat l = wordsNat l') :
    l = l' := by
  have hmap : l.map BitVec.toNat = l'.map BitVec.toNat := Nat.ofDigits_inj_of_len_eq (Nat.one_lt_two_pow hw.ne')
    (by simpa using hlen) (forall_mem_map_toNat_lt l) (forall_mem_map_toNat_lt l') h
  exact List.map_injective_iff.2 (fun _ _ => BitVec.eq_of_toNat_eq) hmap

/-- Words cut from an integer hold its low bits. -/
theorem wordsNat_cutWords (w n v : Nat) : wordsNat (cutWords w n v) = v % 2 ^ (w * n) := by
  induction n with
  | zero => simp [cutWords, wordsNat, Nat.mod_one]
  | succ n ih =>
    have hsplit : cutWords w (n + 1) v = cutWords w n v ++ [BitVec.ofNat w (v >>> (w * n))] := by
      simp [cutWords, List.range_succ]
    calc wordsNat (cutWords w (n + 1) v)
      _ = wordsNat (cutWords w n v) + (2 ^ w) ^ n * (v / 2 ^ (w * n) % 2 ^ w) := by
        simp [hsplit, wordsNat, Nat.ofDigits_append, cutWords_length, Nat.shiftRight_eq_div_pow]
      _ = v % 2 ^ (w * (n + 1)) := by
        rw [ih, pow_mul, pow_mul, Nat.mod_pow_succ]

/-- Words cut anew at another width that fills the same bits, and then at their own width again, are as before. -/
theorem cutWords_recut {w' n n' : Nat} (hw : 0 < w) (hbits : w * n = w' * n') {l : List (BitVec w)} (hl : l.length = n) :
    cutWords w n (wordsNat (cutWords w' n' (wordsNat l))) = l := by
  subst hl
  refine wordsNat_inj hw (cutWords_length ..) ?_
  rw [wordsNat_cutWords, wordsNat_cutWords, ← hbits, Nat.mod_mod, Nat.mod_eq_of_lt (wordsNat_lt hw l)]

end Words

/-- Settles O35: 16 channels and 22 bytes are two ways to cut the same 176 bits. -/
theorem packAndUnpackAreInverse : Obligations.PackAndUnpackAreInverse := by
  have hbits : 11 * 16 = 8 * 22 := rfl
  refine ⟨fun ch => Vector.toList_inj.1 ?_, fun p hp => ?_⟩
  · rw [unpack_toList, leNat_eq_wordsNat, pack_eq_cutWords, packNat_eq_wordsNat]
    exact cutWords_recut (by decide) hbits ch.length_toList
  · rw [pack_eq_cutWords, packNat_eq_wordsNat, unpack_toList, leNat_eq_wordsNat]
    exact cutWords_recut (by decide) hbits.symm hp

/-! ### The frame rows (42 R201 to R205) -/

/-- CRSF.RC on a payload of another size (42 R205). -/
theorem execCrsfRc_rejects {s : State} {payload : List Byte} (hp : s.cfg.protocol = .crsf) (hlen : payload.length ≠ 22) :
    execCrsfRc payload s = .next (afterReject .crsf .crsfBadPayloadLength s) := by
  rw [execCrsfRc, if_pos hp, if_neg hlen, raiseReject_eq]

theorem crsfClassify_telem {c : Config} {type : Byte} (hrc : type ≠ c.crsfTypeRc) (hknown : type ∈ c.crsfKnownTelem) :
    crsfClassify c type = .telem := by
  rw [crsfClassify, if_neg hrc, if_pos (List.contains_iff_mem.2 hknown)]

theorem crsfClassify_unknown {c : Config} {type : Byte} (hrc : type ≠ c.crsfTypeRc) (hknown : type ∉ c.crsfKnownTelem) :
    crsfClassify c type = .unknown := by
  rw [crsfClassify, if_neg hrc, if_neg (mt List.contains_iff_mem.1 hknown)]

/-- Settles O30: 22 bytes are converted and published, any other number is rejected. -/
theorem rcChannelsRow : Obligations.RcChannelsRow := fun _ _ hp =>
  ⟨execCrsfRc_publishes hp, execCrsfRc_rejects hp⟩

/-- Settles O31: the class of the type selects the row that emits the event. -/
theorem crsfOtherFrameRows : Obligations.CrsfOtherFrameRows := fun _ _ _ hp hrc =>
  ⟨fun hknown => if_pos ⟨hp, crsfClassify_telem hrc hknown⟩, fun hknown => if_pos ⟨hp, crsfClassify_unknown hrc hknown⟩⟩

/-! ### The telemetry encoder (42 R212) -/

theorem fitted_ne_nothingToEncode (out : List Byte) (cap : Nat) : fitted out cap ≠ .nothingToEncode := by
  unfold fitted
  split <;> nofun

theorem encodeTelemetry_eq_nothingToEncode {tp : TelemetryPayload} {d : TelemetryData} {cap : Nat} :
    encodeTelemetry tp d cap = .nothingToEncode ↔ d.allAbsent = true := by
  unfold encodeTelemetry
  split
  next habsent => simp [habsent]
  next hpresent => simp [hpresent, fitted_ne_nothingToEncode]

theorem encodeTelemetry_of_present {tp : TelemetryPayload} {d : TelemetryData} (h : d.allAbsent = false) (cap : Nat) :
    encodeTelemetry tp d cap = fitted (telemetryBytes (tp.frames d)) cap := by
  rw [encodeTelemetry, h, if_neg Bool.false_ne_true]

/-- Every frame has bytes, so only no frames have none. -/
theorem telemetryBytes_ne_nil {frames : List (Byte × List Byte)} (h : frames ≠ []) : telemetryBytes frames ≠ [] := by
  cases frames with
  | nil => exact absurd rfl h
  | cons f frames => nofun

/-- Settles O40: a payload of at most 60 bytes makes a frame of legal length, which decodes. -/
theorem telemetryFramesAreAccepted : Obligations.TelemetryFramesAreAccepted := by
  intro tp d cap
  refine ⟨encodeTelemetry_eq_nothingToEncode, fun hpresent => ?_, fun f hf c hsync hmax => ?_⟩
  · have hframes : tp.frames d ≠ [] := fun hnone => by simp [(tp.empty_iff d).1 hnone] at hpresent
    rw [encodeTelemetry_of_present hpresent]
    exact ⟨telemetryBytes_ne_nil hframes, fitted_of_lt, fitted_of_le⟩
  · have hsize := tp.payload_le d f hf
    exact decodeCrsf_crsfFrameOf hsync (wfCrsfPayload_iff.2 ⟨by omega, by omega⟩) f.1

end Sys2Proof.Machine
end

section
/-! The CRSF scales (family 42_crsf_decode; 42 R206 to R211; 00 R10): what lin is inside, at and beyond the ends of its range, its order, and
the mapped fields of an RC frame. -/

namespace Sys2Proof.Machine

/-! ### The scaling function over its range (00 R10) -/

theorem clamp_of_le {v lo hi : Int} (hlt : lo < hi) (h : v ≤ lo) : clamp v lo hi = lo := by
  unfold clamp
  split <;> omega

theorem clamp_of_ge {v lo hi : Int} (hlt : lo < hi) (h : hi ≤ v) : clamp v lo hi = hi := by
  unfold clamp
  split <;> omega

theorem clamp_mono {v w lo hi : Int} (hlt : lo < hi) (h : v ≤ w) : clamp v lo hi ≤ clamp w lo hi := by
  unfold clamp
  split <;> split <;> omega

theorem clamp_reflect (v lo hi : Int) (hlt : lo < hi) : clamp (lo + hi - v) lo hi = lo + hi - clamp v lo hi := by
  unfold clamp
  split <;> split <;> omega

theorem rdiv_mono {n m d : Int} (hd : 0 < d) (h : n ≤ m) : rdiv n d ≤ rdiv m d :=
  Int.ediv_le_ediv (by omega) (by omega)

/-- A quotient that is an integer is not rounded. -/
theorem rdiv_mul_self (k : Int) {d : Int} (hd : 0 < d) : rdiv (d * k) d = k := by
  have hsum : 2 * (d * k) + d = d + 2 * d * k := by ring
  rw [rdiv, hsum, Int.add_mul_ediv_left _ _ (by omega), Int.ediv_eq_zero_of_lt (by omega) (by omega), zero_add]

section Lin

variable {v w lo hi full : Int}

/-- Inversion reflects the value about the range. -/
theorem lin_inverted (hlt : lo < hi) : lin v lo hi true full = lin (lo + hi - v) lo hi false full := by
  simp only [lin, clamp_reflect v lo hi hlt, if_true, Bool.false_eq_true, if_false]

theorem lin_of_mem (hlo : lo ≤ v) (hhi : v ≤ hi) : lin v lo hi false full = rdiv ((v - lo) * full) (hi - lo) := by
  simp only [lin, clamp_eq_self hlo hhi, Bool.false_eq_true, if_false]

theorem lin_of_le (hlt : lo < hi) (h : v ≤ lo) : lin v lo hi false full = 0 := by
  simp only [lin, clamp_of_le hlt h, Bool.false_eq_true, if_false, sub_self, zero_mul]
  simpa using rdiv_mul_self 0 (sub_pos.2 hlt)

theorem lin_of_ge (hlt : lo < hi) (h : hi ≤ v) : lin v lo hi false full = full := by
  simp only [lin, clamp_of_ge hlt h, Bool.false_eq_true, if_false]
  exact rdiv_mul_self full (sub_pos.2 hlt)

theorem lin_mono (hlt : lo < hi) (hfull : 0 ≤ full) (h : v ≤ w) : lin v lo hi false full ≤ lin w lo hi false full := by
  have hclamp := clamp_mono hlt h
  simp only [lin, Bool.false_eq_true, if_false]
  exact rdiv_mono (by omega) (mul_le_mul_of_nonneg_right (by omega) hfull)

theorem lin_antitone (hlt : lo < hi) (hfull : 0 ≤ full) (h : v ≤ w) : lin w lo hi true full ≤ lin v lo hi true full := by
  rw [lin_inverted hlt, lin_inverted hlt]
  exact lin_mono hlt hfull (by omega)

end Lin

/-! ### The channel scales (42 R206 to R208, R211) -/

theorem scaleStick_chan (v : Int) (inv : Bool) : scaleStick v chanMin chanMax inv = lin v 172 1811 inv 65535 - 32768 :=
  (scalingStaysInItsRange v 172 1811 inv (by decide)).2.1

theorem scaleTrigger_chan (v : Int) (inv : Bool) : scaleTrigger v chanMin chanMax inv = lin v 172 1811 inv 255 :=
  (scalingStaysInItsRange v 172 1811 inv (by decide)).2.2

section Chan

variable {v full : Int}

theorem lin_chan (hlo : 172 ≤ v) (hhi : v ≤ 1811) : lin v 172 1811 false full = (2 * (v - 172) * full + 1639) / 3278 := by
  rw [lin_of_mem hlo hhi, rdiv, mul_assoc]
  rfl

theorem lin_chan_inverted (hlo : 172 ≤ v) (hhi : v ≤ 1811) :
    lin v 172 1811 true full = (2 * (1811 - v) * full + 1639) / 3278 := by
  rw [lin_inverted (by decide), lin_chan (by omega) (by omega)]
  congr 4
  omega

/-- At the lower end and below it. -/
theorem lin_chan_low (h : v ≤ 172) : lin v 172 1811 false full = 0 ∧ lin v 172 1811 true full = full :=
  ⟨lin_of_le (by decide) h, (lin_inverted (by decide)).trans (lin_of_ge (by decide) (by omega))⟩

/-- At the upper end and beyond it. -/
theorem lin_chan_high (h : 1811 ≤ v) : lin v 172 1811 false full = full ∧ lin v 172 1811 true full = 0 :=
  ⟨lin_of_ge (by decide) h, (lin_inverted (by decide)).trans (lin_of_le (by decide) (by omega))⟩

end Chan

/-- Settles O38: both scales are lin over the channel range, whose inversion is a reflection. -/
theorem channelScaleEndsAndOrder : Obligations.ChannelScaleEndsAndOrder := by
  intro v w
  simp only [scaleStick_chan, scaleTrigger_chan]
  refine ⟨fun hlo hhi => ?_, fun hlow => ?_, fun hhigh => ?_, fun hle => ?_⟩
  · simp only [lin_chan hlo hhi, lin_chan_inverted hlo hhi, and_self]
  · simp [lin_chan_low hlow]
  · simp [lin_chan_high hhigh]
  · have hrange : (172 : Int) < 1811 := by decide
    exact ⟨sub_le_sub_right (lin_mono hrange (by decide) hle) _, sub_le_sub_right (lin_antitone hrange (by decide) hle) _,
      lin_mono hrange (by decide) hle, lin_antitone hrange (by decide) hle⟩

/-! ### The fields of a converted RC frame (42 R206 to R209) -/

theorem buttons_channelsToGamepad (ch : Vector Channel 16) (m : ChannelMapping) (i : Fin 16) :
    (channelsToGamepad ch m).buttons.getLsbD i = pressed ch m.buttons[i] := by
  simp [channelsToGamepad]

theorem pressed_some (ch : Vector Channel 16) (c : Fin 16) : pressed ch (some c) = true ↔ 992 ≤ ch[c].toNat := decide_eq_true_iff

/-- A stick axis is neutral without an entry and the scale of its entry's channel with one (42 R207). -/
theorem stickOf_followsEntry (ch : Vector Channel 16) (entry : Option ChannelSource) :
    (entry = none → stickOf ch entry = 0) ∧
      ∀ src, entry = some src → (stickOf ch entry).toInt = scaleStick (ch[src.ch].toNat : Int) chanMin chanMax src.inv := by
  refine ⟨?_, ?_⟩
  · rintro rfl
    rfl
  · rintro src rfl
    exact toInt_ofInt_of_stickRange (clamp_mem (by decide) _)

/-- A trigger is neutral without an entry and the scale of its entry's channel with one (42 R208). -/
theorem triggerOf_followsEntry (ch : Vector Channel 16) (entry : Option ChannelSource) :
    (entry = none → triggerOf ch entry = 0) ∧
      ∀ src, entry = some src →
        ((triggerOf ch entry).toNat : Int) = scaleTrigger (ch[src.ch].toNat : Int) chanMin chanMax src.inv := by
  refine ⟨?_, ?_⟩
  · rintro rfl
    rfl
  · rintro src rfl
    exact toNat_ofInt_of_triggerRange (clamp_mem (by decide) _)

/-- Settles O39: each field is made from its own entry alone. -/
theorem channelsFollowTheirMappingEntries : Obligations.ChannelsFollowTheirMappingEntries := by
  intro ch m g stick trigger
  obtain ⟨hlx0, hlx⟩ := stickOf_followsEntry ch m.lx
  obtain ⟨hly0, hly⟩ := stickOf_followsEntry ch m.ly
  obtain ⟨hrx0, hrx⟩ := stickOf_followsEntry ch m.rx
  obtain ⟨hry0, hry⟩ := stickOf_followsEntry ch m.ry
  obtain ⟨hlt0, hlt⟩ := triggerOf_followsEntry ch m.lt
  obtain ⟨hrt0, hrt⟩ := triggerOf_followsEntry ch m.rt
  refine ⟨hlx0, hlx, hly0, hly, hrx0, hrx, hry0, hry, hlt0, hlt, hrt0, hrt, fun i => ?_⟩
  rw [buttons_channelsToGamepad]
  refine ⟨fun hnone => ?_, fun c hsome => ?_⟩
  · rw [hnone]
    rfl
  · rw [hsome]
    exact pressed_some ch c

end Sys2Proof.Machine
end

section
/-! The MAVLink framer (family 43_mavlink_framer; 43 R231 to R243, R247): its byte-step rows one by one, what the last byte of a frame can
do, and that a frame ends after the bytes it declares, whatever their values. -/

namespace Sys2Proof.Machine

/-! ### The scan (43 R231 to R233) -/

/-- Settles O41: the two sync rows are written out, and the skip row writes nothing. -/
theorem mavScanRows : Obligations.MavScanRows := fun _ _ hp hst =>
  have hin := mavIn_eq_true.2 ⟨hp, hst⟩
  ⟨if_pos hin, if_pos hin, fun _ _ => rfl⟩

/-! ### Length, header, payload and the first CRC byte (43 R234 to R237) -/

/-- What is awaited after a header byte, as 43 R235 says it: the next one, or by the length byte the CRC or the payload. -/
theorem mavSt_after_header (ver : MavVer) (len : Byte) (hidx : Nat) :
    (if hidx = hlen ver then (if 0 < len.toNat then MavSt.accumulatePayload else .awaitCrcLow) else .accumulateHeader) =
      if hidx ≠ hlen ver then .accumulateHeader else if len = 0 then .awaitCrcLow else .accumulatePayload := by
  have hzero : 0 < len.toNat ↔ ¬ len = 0 := by bv_omega
  by_cases hlast : hidx = hlen ver
  · simp only [hlast, hzero, ite_not, ne_eq, not_true_eq_false, if_true, if_false]
  · rw [if_neg hlast, if_pos hlast]

/-- Settles O42: both rows are written out, and the byte written is the byte read back. -/
theorem mavLengthAndHeaderRows : Obligations.MavLengthAndHeaderRows := fun b s hp =>
  ⟨fun hst => execMavLen_next (mavIn_eq_true.2 ⟨hp, hst⟩), fun hst hwf hroom => by
    have hnext := execMavHdr_next (b := b) (mavIn_eq_true.2 ⟨hp, hst⟩) hroom
    rw [hst, mavSt_after_header] at hnext
    exact ⟨_, hnext, fun a => Memory.read_write hwf _ a b, rfl⟩⟩

/-- Settles O43: both rows are written out, and the byte written is the byte read back. -/
theorem mavPayloadAndCrcLowRows : Obligations.MavPayloadAndCrcLowRows := fun b s hp =>
  ⟨fun hst hwf hroom => by
    have hnext := execMavPay_next (b := b) (mavIn_eq_true.2 ⟨hp, hst⟩) hroom
    rw [hst] at hnext
    exact ⟨_, hnext, fun a => Memory.read_write hwf _ a b, rfl⟩,
  fun hst => execMavCrcLo_next (mavIn_eq_true.2 ⟨hp, hst⟩)⟩

/-! ### The last byte (43 R241 to R243) -/

/-- MAV.HEARTBEAT: the event and the pulse, and no publish (44 R271). -/
theorem execMavHeartbeat_next {s : State} (hp : s.cfg.protocol = .mavlink) (h : MavHeader) (payload : List Byte) :
    execMavHeartbeat h payload s = .next (pulseLink (afterEvent (.heartbeat h.sysid h.compid) s)) := if_pos hp

/-- MAV.UNKNOWN: the event alone (43 R243). -/
theorem execMavUnknown_next {s : State} (hp : s.cfg.protocol = .mavlink) (h : MavHeader) (id : MsgId) (payload : List Byte)
    (crc : Half) : execMavUnknown h id payload crc s = .next (afterEvent (.ignoredMsg id) s) := if_pos hp

/-- A known id with a wrong CRC is rejected, whatever the id (43 R242). -/
theorem mavClassify_mismatch {c : Config} {ver : MavVer} {len : Byte} {hdr pay : List Byte} {crc : Half} {e : Byte}
    (hextra : c.extra (msgIdOf ver hdr) = some e) (hcrc : crc ≠ frameCrc c.mavCrcCoversLen len hdr pay e) :
    mavClassify c ver len hdr pay crc = .error .mavCrcMismatch := by
  simp only [mavClassify, hextra, if_pos hcrc]

section LastByte

variable {s : State} {b : Byte}

/-- MAV.CRCHI on a frame that is rejected (43 R242). -/
theorem execMavCrcHi_reject (hin : mavIn s .awaitCrcHigh = true) (hlenMax : s.mav.len.toNat ≤ s.cfg.mavMaxPayload) {code : RejectCode}
    (hcls : mavClassify s.cfg s.mav.ver s.mav.len (s.mav.hdr.readRange 0 (hlen s.mav.ver))
      (s.mav.pay.readRange 0 s.mav.len.toNat) (le16 s.mav.crcLo b) = .error code) :
    execMavCrcHi b s = .next (afterReject .mavlink code s) := by
  rw [execMavCrcHi, if_pos hin, memRead_of_le (b := .mavHdr) (by simpa using hlen_le s.mav.ver),
    memRead_of_le (b := .mavPay) (by simpa using hlenMax)]
  simp only [State.buf_hdr, State.buf_pay, hcls, raiseReject_eq]

/-- The row of an accepted frame completes and leaves the framer's registers as they are. -/
theorem runMavFrame_keeps_mav (hp : s.cfg.protocol = .mavlink) (cls : MavClass) (ver : MavVer) (hdr pay : List Byte) (crc : Half) :
    ∃ t, runMavFrame cls ver hdr pay crc s = .next t ∧ t.mav = s.mav := by
  cases cls with
  | heartbeat => exact ⟨_, execMavHeartbeat_next hp (headerOf ver hdr) pay, rfl⟩
  | manualControl => exact ⟨_, execMavManualControl_publishes hp (headerOf ver hdr) pay, rfl⟩
  | ignored => exact ⟨_, execMavUnknown_next hp (headerOf ver hdr) (msgIdOf ver hdr) pay crc, rfl⟩

/-- Whatever the last byte, and whether the frame is accepted or rejected, the framer scans after it. -/
theorem execMavCrcHi_scans (hin : mavIn s .awaitCrcHigh = true) (hlenMax : s.mav.len.toNat ≤ s.cfg.mavMaxPayload) (b : Byte) :
    ∃ t, execMavCrcHi b s = .next t ∧ t.mav.st = .awaitSync := by
  cases hcls : mavClassify s.cfg s.mav.ver s.mav.len (s.mav.hdr.readRange 0 (hlen s.mav.ver))
      (s.mav.pay.readRange 0 s.mav.len.toNat) (le16 s.mav.crcLo b) with
  | error code => exact ⟨_, execMavCrcHi_reject hin hlenMax hcls, rfl⟩
  | ok cls =>
    rw [execMavCrcHi_accept hin hlenMax rfl rfl hcls]
    obtain ⟨t, hnext, hmav⟩ := runMavFrame_keeps_mav (s := toScan .mavlink s) (mavIn_eq_true.1 hin).1 cls s.mav.ver _ _ _
    exact ⟨t, hnext, by rw [hmav]; rfl⟩

end LastByte

/-- Settles O44: the id is classified first, then the CRC of a known id; an accepted frame runs its row in the scan state. -/
theorem mavLastByteRow : Obligations.MavLastByteRow := by
  intro b s hp hst hlenMax hdr pay id h scan
  have hin := mavIn_eq_true.2 ⟨hp, hst⟩
  have hpScan : scan.cfg.protocol = .mavlink := hp
  have haccept : ∀ {cls}, mavClassify s.cfg s.mav.ver s.mav.len hdr pay (b ++ s.mav.crcLo) = .ok cls →
      exec (.mavCrcHi b) s = runMavFrame cls s.mav.ver hdr pay (b ++ s.mav.crcLo) scan := execMavCrcHi_accept hin hlenMax rfl rfl
  have hignored := execMavUnknown_next hpScan h id pay (b ++ s.mav.crcLo)
  refine ⟨fun hextra => ?_, fun e hextra => ⟨fun hcrc => ?_, fun hcrc => ?_⟩⟩
  · exact (haccept (mavClassify_unknown hextra)).trans hignored
  · exact execMavCrcHi_reject hin hlenMax (mavClassify_mismatch hextra hcrc)
  · have hcls : mavClassify s.cfg s.mav.ver s.mav.len hdr pay (b ++ s.mav.crcLo) =
        .ok (if id = 0 then .heartbeat else if id = 69 then .manualControl else .ignored) := hcrc ▸ mavClassify_known hextra
    rw [haccept hcls]
    refine ⟨fun h0 => ?_, fun h69 => ?_, fun h0 h69 => ?_⟩
    · rw [if_pos h0]
      exact execMavHeartbeat_next hpScan h pay
    · rw [if_neg (by rw [h69]; decide), if_pos h69]
      exact execMavManualControl_publishes hpScan h pay
    · rw [if_neg h0, if_neg h69]
      exact hignored

/-! ### The end of a frame (43 R247) -/

section Frame

variable {c : Config} (hp : c.protocol = .mavlink) {ver : MavVer} {n : Byte} (hmax : n.toNat ≤ c.mavMaxPayload)
include hp hmax

theorem receives_mavCrcHi_scans {hdr pay : List Byte} {lo : Byte} (hi : Byte) :
    Receives c (fun s => MavHolds ver n hdr pay s.mav ∧ s.mav.st = .awaitCrcHigh ∧ s.mav.crcLo = lo) [hi]
      (fun t => t.mav.st = .awaitSync) :=
  .byte fun s _ hcfg ⟨hholds, hst, _⟩ => by
    subst hcfg
    have hin := mavIn_eq_true.2 ⟨hp, hst⟩
    rw [exec_inRx_mav hin]
    exact execMavCrcHi_scans hin (hholds.len ▸ hmax) hi

/-- The header, payload and CRC bytes a length byte declares end the frame. -/
theorem receives_mavRest {hdr pay : List Byte} (hhdrLen : hdr.length = hlen ver) (hpayLen : pay.length = n.toNat) (lo hi : Byte) :
    Receives c (fun s => s.mav.st = .awaitLength ∧ s.mav.ver = ver) (n :: (hdr ++ (pay ++ [lo, hi])))
      (fun t => t.mav.st = .awaitSync) := by
  have hhdr := Receives.collect (c := c) (P := fun hdr s => MavHolds ver n hdr [] s.mav ∧ s.mav.st = mavAwaits ver n hdr [])
    (fun _ b hroom => receives_mavHdr hp hroom b) hdr [] (by simp [hhdrLen])
  have hpay := Receives.collect (c := c) (P := fun pay s => MavHolds ver n hdr pay s.mav ∧ s.mav.st = mavAwaits ver n hdr pay)
    (fun _ b hroom => receives_mavPay hp hmax hhdrLen hroom b) pay [] (by simp [hpayLen])
  exact (receives_mavLen hp ver n).append <| hhdr.append <| hpay.append <|
    (receives_mavCrcLo hp hhdrLen hpayLen lo).append (receives_mavCrcHi_scans hp hmax hi)

end Frame

/-- Bytes of the number a frame needs after its length byte are a header, a payload and the two CRC bytes. -/
theorem exists_frame_parts {l : List Byte} {m n : Nat} (h : l.length = m + n + 2) :
    ∃ (hdr pay : List Byte) (lo hi : Byte), hdr.length = m ∧ pay.length = n ∧ l = hdr ++ (pay ++ [lo, hi]) := by
  obtain ⟨lo, hi, hcrc⟩ : ∃ lo hi, (l.drop m).drop n = [lo, hi] :=
    List.length_eq_two.1 (by rw [List.length_drop, List.length_drop]; omega)
  refine ⟨l.take m, (l.drop m).take n, lo, hi, ?_, ?_, ?_⟩
  · rw [List.length_take]; omega
  · rw [List.length_take, List.length_drop]; omega
  · rw [← hcrc, List.take_append_drop, List.take_append_drop]

/-- Settles O50: cut into header, payload and CRC, the bytes bring the framer from the length through each state to the scan. -/
theorem mavFramerNeverWedges : Obligations.MavFramerNeverWedges := by
  intro s rest n l hinv hp hst hlength hinbox
  obtain ⟨-, -, -, -, -, hmax⟩ := hinv.cfg
  obtain ⟨hdr, pay, lo, hi, hhdrLen, hpayLen, rfl⟩ := exists_frame_parts hlength
  obtain ⟨t, hrun, hkeeps, hscan⟩ := receives_mavRest hp (by omega) hhdrLen hpayLen lo hi s rest hinv rfl hinbox ⟨hst, rfl⟩
  exact ⟨t, hrun, hscan, hkeeps.inbox⟩

end Sys2Proof.Machine
end

section
/-! The two decoded MAVLink messages (family 44_mavlink_decode; 44 R271 to R281; 30 R99; 10 R25): the rows that end a frame, the fields of
a MANUAL_CONTROL payload, and the state they are converted to. -/

namespace Sys2Proof.Machine

/-! ### The message rows (44 R271, R272; 43 R243) -/

/-- Settles O45: each row runs on an instance with the MAVLink parser, whatever its operands. -/
theorem mavMessageRows : Obligations.MavMessageRows := fun _ h id payload crc hp =>
  ⟨execMavHeartbeat_next hp h payload, execMavManualControl_publishes hp h payload, execMavUnknown_next hp h id payload crc⟩

/-! ### The payload (44 R272, 30 R99) -/

theorem toNat_le16 (lo hi : Byte) : (le16 lo hi).toNat = lo.toNat + 256 * hi.toNat := toNat_append_eq_add hi lo

/-- A byte beyond the end reads 0, as an appended zero does. -/
theorem byteAt_append_zeros (p : List Byte) (n : Nat) : byteAt (p ++ List.replicate n 0) = byteAt p := by
  funext k
  unfold byteAt
  rcases Nat.lt_or_ge k p.length with hk | hk
  · exact List.getD_append _ _ _ _ hk
  · rw [List.getD_append_right _ _ _ _ hk, List.getD_eq_getElem?_getD, List.getElem?_getD_replicate_default_eq,
      List.getD_eq_default _ _ hk]

/-- Settles O46: a field is the little-endian number of its two bytes, and the payload is read through byteAt alone. -/
theorem manualPayloadLayout : Obligations.ManualPayloadLayout :=
  ⟨fun _ _ _ _ _ _ _ _ _ _ _ _ _ _ =>
    ⟨toNat_le16 _ _, toNat_le16 _ _, toNat_le16 _ _, toNat_le16 _ _, toNat_le16 _ _, rfl, toNat_le16 _ _⟩,
  fun p n => by simp only [manualFields, byteAt_append_zeros]⟩

/-! ### The converted state (44 R273 to R277) -/

/-- The conversion before an axis is applied: buttons and triggers, the four stick axes 0. -/
def manualButtonsAndTriggers (f : ManualFields) : GamepadState :=
  { GamepadState.neutral with
    buttons := f.buttons, lt := BitVec.ofInt 8 (zLeft f.z.toInt), rt := BitVec.ofInt 8 (zRight f.z.toInt) }

theorem manualToGamepad_eq (f : ManualFields) (m : AxisMapping) : manualToGamepad f m =
    applyAxis f.r m.r (applyAxis f.y m.y (applyAxis f.x m.x (manualButtonsAndTriggers f))) := rfl

theorem axisOf_manualButtonsAndTriggers (f : ManualFields) (a : StickAxis) : axisOf (manualButtonsAndTriggers f) a = 0 := by
  cases a <;> rfl

/-- Applying an axis writes no field but the four stick axes. -/
theorem applyAxis_keeps (v : Half) (e : Option AxisTarget) (g : GamepadState) :
    (applyAxis v e g).buttons = g.buttons ∧ (applyAxis v e g).lt = g.lt ∧ (applyAxis v e g).rt = g.rt := by
  cases e with
  | none => exact ⟨rfl, rfl, rfl⟩
  | some t =>
    obtain ⟨dst, inv⟩ := t
    cases dst <;> exact ⟨rfl, rfl, rfl⟩

/-- The fields that no axis entry reaches. -/
theorem manualToGamepad_buttonsAndTriggers (f : ManualFields) (m : AxisMapping) :
    (manualToGamepad f m).buttons = f.buttons ∧
    (manualToGamepad f m).lt = BitVec.ofInt 8 (zLeft f.z.toInt) ∧ (manualToGamepad f m).rt = BitVec.ofInt 8 (zRight f.z.toInt) := by
  simp only [manualToGamepad_eq, applyAxis_keeps]
  exact ⟨rfl, rfl, rfl⟩

/-- An entry that targets the axis sets it, whatever an earlier entry left there (10 R25). -/
theorem toInt_axisOf_applyAxis (v : Half) (a : StickAxis) (inv : Bool) (g : GamepadState) :
    (axisOf (applyAxis v (some ⟨a, inv⟩) g) a).toInt = scaleStick v.toInt (-1000) 1000 inv := by
  rw [applyAxis, axisOf_setAxis, if_pos rfl]
  exact toInt_ofInt_of_stickRange (clamp_mem (by decide) _)

theorem axisOf_applyAxis_of_notDriving {e : Option AxisTarget} {a : StickAxis} (h : notDriving e a) (v : Half) (g : GamepadState) :
    axisOf (applyAxis v e g) a = axisOf g a := by
  cases e with
  | none => rfl
  | some t => rw [applyAxis, axisOf_setAxis, if_neg ((notDriving_some t a).1 h).symm]

/-! ### The stick scale (44 R273) -/

theorem scaleStick_manual (v : Int) (inv : Bool) : scaleStick v (-1000) 1000 inv = lin v (-1000) 1000 inv 65535 - 32768 :=
  (scalingStaysInItsRange v (-1000) 1000 inv (by decide)).2.1

/-- Inversion reflects the value about 0, the midpoint of the range. -/
theorem scaleStick_manual_inverted (v : Int) : scaleStick v (-1000) 1000 true = scaleStick (-v) (-1000) 1000 false := by
  rw [scaleStick_manual, scaleStick_manual, lin_inverted (by decide), neg_add_cancel, zero_sub]

theorem scaleStick_manual_of_mem {v : Int} (hlo : -1000 ≤ v) (hhi : v ≤ 1000) :
    scaleStick v (-1000) 1000 false = (2 * (v + 1000) * 65535 + 2000) / 4000 - 32768 := by
  rw [scaleStick_manual, lin_of_mem hlo hhi, rdiv, sub_neg_eq_add, mul_assoc]
  rfl

theorem scaleStick_manual_low {v : Int} (h : v ≤ -1000) : scaleStick v (-1000) 1000 false = -32768 := by
  rw [scaleStick_manual, lin_of_le (by decide) h]
  rfl

theorem scaleStick_manual_high {v : Int} (h : 1000 ≤ v) : scaleStick v (-1000) 1000 false = 32767 := by
  rw [scaleStick_manual, lin_of_ge (by decide) h]
  rfl

theorem scaleStick_manual_mono {v w : Int} (h : v ≤ w) : scaleStick v (-1000) 1000 false ≤ scaleStick w (-1000) 1000 false := by
  rw [scaleStick_manual, scaleStick_manual]
  exact sub_le_sub_right (lin_mono (by decide) (by decide) h) _

/-- Settles O48: inversion negates the value before it is scaled; x, y and r are applied in this order, so the last entry that targets an
axis is the one that counts. -/
theorem manualAxesAndButtons : Obligations.ManualAxesAndButtons := by
  refine ⟨fun v w => ?_, fun f m a w => ?_⟩
  · simp only [scaleStick_manual_inverted]
    refine ⟨fun hlo hhi => ⟨scaleStick_manual_of_mem hlo hhi, ?_⟩, rfl, rfl, fun hlow => ?_, fun hhigh => ?_, fun hle => ?_⟩
    · rw [scaleStick_manual_of_mem (by omega) (by omega), neg_add_eq_sub]
    · exact ⟨scaleStick_manual_low hlow, scaleStick_manual_high (by omega)⟩
    · exact ⟨scaleStick_manual_high hhigh, scaleStick_manual_low (by omega)⟩
    · exact ⟨scaleStick_manual_mono hle, scaleStick_manual_mono (neg_le_neg hle)⟩
  · obtain ⟨hbuttons, -, -⟩ := manualToGamepad_buttonsAndTriggers f m
    refine ⟨fun inv hr => ?_, fun hr inv hy => ?_, fun hr hy inv hx => ?_, fun hr hy hx => ?_, hbuttons, rfl⟩
    · rw [manualToGamepad_eq, hr, toInt_axisOf_applyAxis]
    · rw [manualToGamepad_eq, axisOf_applyAxis_of_notDriving hr, hy, toInt_axisOf_applyAxis]
    · rw [manualToGamepad_eq, axisOf_applyAxis_of_notDriving hr, axisOf_applyAxis_of_notDriving hy, hx, toInt_axisOf_applyAxis]
    · rw [manualToGamepad_eq, axisOf_applyAxis_of_notDriving hr, axisOf_applyAxis_of_notDriving hy,
        axisOf_applyAxis_of_notDriving hx, axisOf_manualButtonsAndTriggers]

/-! ### The trigger split (44 R275, R281) -/

/-- The clamp leaves the side of the midpoint as it is. -/
theorem clamp_le_mid_iff (z : Int) : clamp z 0 1000 ≤ 500 ↔ z ≤ 500 := by
  unfold clamp
  split_ifs <;> omega

theorem zSplit_lower {z : Int} (h : z ≤ 500) : zLeft z = rdiv ((500 - clamp z 0 1000) * 255) 500 ∧ zRight z = 0 :=
  have hmid := (clamp_le_mid_iff z).2 h
  ⟨if_pos hmid, if_pos hmid⟩

theorem zSplit_upper {z : Int} (h : 500 < z) : zRight z = rdiv ((clamp z 0 1000 - 500) * 255) 500 ∧ zLeft z = 0 :=
  have hmid := mt (clamp_le_mid_iff z).1 (not_le.2 h)
  ⟨if_neg hmid, if_neg hmid⟩

/-- The share of a distance from the midpoint fits a trigger, so the byte holds it unchanged. -/
theorem toNat_triggerShare {d : Int} (h0 : 0 ≤ d) (h1 : d ≤ 500) :
    ((BitVec.ofInt 8 (rdiv (d * 255) 500)).toNat : Int) = (2 * (d * 255) + 500) / 1000 :=
  toNat_ofInt_of_triggerRange ⟨rdiv_nonneg (by omega) (by decide), rdiv_le (by decide) (by omega)⟩

/-- Settles O47: at or below the midpoint the right trigger is 0, above it the left one, and the other is the share of the clamped z. -/
theorem triggerSplitOfZ : Obligations.TriggerSplitOfZ := by
  intro f m z g
  obtain ⟨-, hlt, hrt⟩ := manualToGamepad_buttonsAndTriggers f m
  have hlow : z ≤ 0 → g.lt = 255 ∧ g.rt = 0 := fun h => by
    obtain ⟨hleft, hright⟩ := zSplit_lower (z := z) (by omega)
    rw [hlt, hrt, hleft, hright, clamp_of_le (by decide) h]
    decide
  have hhigh : 1000 ≤ z → g.lt = 0 ∧ g.rt = 255 := fun h => by
    obtain ⟨hright, hleft⟩ := zSplit_upper (z := z) (by omega)
    rw [hlt, hrt, hleft, hright, clamp_of_ge (by decide) h]
    decide
  refine ⟨hlow, fun h0 h1 => ?_, fun h0 h1 => ?_, hhigh, fun hz => ?_, fun hz => ?_, fun hz => ?_, ?_⟩
  · obtain ⟨hleft, hright⟩ := zSplit_lower h1
    rw [hlt, hrt, hleft, hright, clamp_eq_self h0 (by omega)]
    exact ⟨toNat_triggerShare (by omega) (by omega), rfl⟩
  · obtain ⟨hright, hleft⟩ := zSplit_upper h0
    rw [hlt, hrt, hleft, hright, clamp_eq_self (by omega) h1]
    exact ⟨toNat_triggerShare (by omega) (by omega), rfl⟩
  · exact hlow (by simp only [z, hz]; decide)
  · rw [hlt, hrt, hz]
    decide
  · exact hhigh (by simp only [z, hz]; decide)
  · rcases le_or_gt z 500 with h | h
    · exact .inr (by rw [hrt, (zSplit_lower h).2]; rfl)
    · exact .inl (by rw [hlt, (zSplit_upper h).2]; rfl)

end Sys2Proof.Machine
end

section
/-! The mailbox and the bridge tasks (family 45_mailbox_bridge; 45 R301 to R312): the rows of both by the states they stand in, that the
latest publish is the one sent, and the cycle in which a Take and a Publish meet. -/

namespace Sys2Proof.Machine

/-! ### The mailbox rows (45 R301, R302) -/

theorem exec_mboxPublish (g : GamepadState) (s : State) : exec (.mboxPublish g) s = .next (publish g s) := rfl

theorem exec_mboxTake (s : State) : exec .mboxTake s = .next (take s) := rfl

/-- Settles O52: both rows run the mailbox operation of their name. -/
theorem publishAndTakeRows : Obligations.PublishAndTakeRows := fun g s => ⟨exec_mboxPublish g s, exec_mboxTake s⟩

/-! ### The rows of the output task, state by state (45 R307 to R310) -/

section OutputRows

variable {s : State}

theorem exec_outWake_of_enabled (hst : s.out.st = .waitValue) (hnew : s.mbox.hasNew = true) :
    exec .outWake s = .next (s.setOut { s.out with st := .waitReady }) := by
  rw [execOutWake_eq, if_pos (wakeEnabled_eq_true.2 ⟨hst, hnew⟩)]

theorem exec_outWake_of_not_enabled (h : ¬(s.out.st = .waitValue ∧ s.mbox.hasNew = true)) : exec .outWake s = .next s := by
  rw [execOutWake_eq, if_neg (mt wakeEnabled_eq_true.1 h)]

theorem exec_outReady_of_waitReady (hst : s.out.st = .waitReady) :
    exec .outReady s = .next ((take s).setOut ⟨.sending, s.mbox.cell⟩) := by
  rw [execOutReady_eq, if_pos hst]

theorem exec_outReady_of_ne_waitReady (hst : s.out.st ≠ .waitReady) : exec .outReady s = .next s := by
  rw [execOutReady_eq, if_neg hst]

theorem exec_outDone_of_sending (hst : s.out.st = .sending) (ok : Bool) :
    exec (.outDone ok) s = .next (if ok then s.setOut { s.out with st := .waitValue }
      else pulseFaultOut (s.setOut { s.out with st := .waitValue })) := by
  rw [execOutDone_eq, if_pos hst]

theorem exec_outDone_of_ne_sending (hst : s.out.st ≠ .sending) (ok : Bool) : exec (.outDone ok) s = .next s := by
  rw [execOutDone_eq, if_neg hst]

end OutputRows

/-- Settles O53: the wake row tests the state and the flag, the ready row the state alone. -/
theorem wakeAndReadyRows : Obligations.WakeAndReadyRows := by
  intro s
  refine ⟨exec_outWake_of_enabled, fun _ hnew => ?_, fun hst _ => exec_outReady_of_waitReady hst, exec_outReady_of_ne_waitReady⟩
  exact exec_outWake_of_not_enabled fun ⟨_, hset⟩ => Bool.false_ne_true (hnew.symm.trans hset)

/-- Settles O54: the end of a send counts in Sending only, and a receive error is the pulse alone. -/
theorem doneAndReceiveErrorRows : Obligations.DoneAndReceiveErrorRows := fun _ =>
  ⟨fun hst => ⟨exec_outDone_of_sending hst true, exec_outDone_of_sending hst false⟩,
    fun ok hst => exec_outDone_of_ne_sending hst ok, rfl⟩

/-! ### The idle step (45 R307, R311) -/

theorem accept_nil {s : State} (h : s.inbox = []) : accept [] s = { s with pulses := Pulses.quiet } := by
  rw [← h]
  rfl

/-- Settles O7: an idle step is the wake row on the state with the output signals cleared. -/
theorem idleStepWakesOrHolds : Obligations.IdleStepWakesOrHolds := by
  intro s hinbox
  rw [step_nil hinbox, accept_nil hinbox]
  split
  next hwake =>
    obtain ⟨hst, hnew⟩ := hwake
    exact exec_outWake_of_enabled hst hnew
  next hhold => exact exec_outWake_of_not_enabled hhold

/-! ### The latest publish (45 R308, R312) -/

/-- Publishes leave the output task where it is. -/
theorem execAll_publishes (gs : List GamepadState) (s : State) :
    ∃ t, execAll (gs.map .mboxPublish) s = .next t ∧ t.out = s.out := by
  refine execAll_induction (P := fun t => t.out = s.out) (fun i hi u hu => ?_) rfl
  obtain ⟨g, -, rfl⟩ := List.mem_map.1 hi
  exact ⟨publish g u, exec_mboxPublish g u, hu⟩

/-- Settles O60: whatever was published before, the last publish overwrites the cell, and readiness takes the cell. -/
theorem latestPublishWins : Obligations.LatestPublishWins := by
  intro s a gs g hst hrun
  obtain ⟨u, hu, hout⟩ := execAll_publishes gs s
  rw [execAll_append hu, execAll_singleton, exec_mboxPublish] at hrun
  obtain rfl : publish g u = a := Host.Outcome.next.inj hrun
  have hready : (publish g u).out.st = .waitReady := by rw [publish_out, hout, hst]
  exact ⟨_, exec_outReady_of_waitReady hready, rfl, rfl, rfl⟩

/-! ### The take strobe, replaced

In the cycle of a Take the byte is received with the take strobe already raised. IN.RX does not read it: with any other strobe it does the
same to everything else. -/

/-- The state with this take strobe. -/
def State.withTake (x : Option GamepadState) (s : State) : State := s.setPulses { s.pulses with take := x }

/-- The outcome with this take strobe in its next state. -/
def Res.withTake (x : Option GamepadState) : Res → Res
  | .next t => .next (t.withTake x)
  | .fault f => .fault f
  | .refused r => .refused r

section TakeStrobe

variable (x : Option GamepadState) (s : State)

@[simp] theorem State.withTake_cfg : (s.withTake x).cfg = s.cfg := rfl
@[simp] theorem State.withTake_txt : (s.withTake x).txt = s.txt := rfl
@[simp] theorem State.withTake_crsf : (s.withTake x).crsf = s.crsf := rfl
@[simp] theorem State.withTake_mav : (s.withTake x).mav = s.mav := rfl

@[simp] theorem memRead_withTake (b : BufId) (i n : Nat) : (s.withTake x).memRead b i n = s.memRead b i n := by
  cases b <;> rfl

@[simp] theorem memWrite_withTake (b : BufId) (i : Nat) (v : Byte) :
    (s.withTake x).memWrite b i v = (s.memWrite b i v).map (State.withTake x) := by
  by_cases hi : i < Config.cap s.cfg b
  · rw [memWrite_of_lt hi, memWrite_of_lt (by exact hi)]
    cases b <;> rfl
  · have hcap := not_lt.1 hi
    rw [memWrite_eq_none.2 hcap, memWrite_eq_none.2 (by exact hcap)]
    rfl

/-- A condition that does not depend on the strobe. -/
theorem Res.withTake_ite {p : Prop} [Decidable p] {r₁ r₁' r₂ r₂' : Res} (ht : r₁' = r₁.withTake x) (he : r₂' = r₂.withTake x) :
    (if p then r₁' else r₂') = Res.withTake x (if p then r₁ else r₂) := by
  split
  · exact ht
  · exact he

/-- A byte stored in an array, registers written after it: an access outside the array faults. -/
theorem memWrite_then_withTake {b : BufId} {i : Nat} {v : Byte} {f : Fault} {k k' : State → Res}
    (hk : ∀ u, k' (u.withTake x) = (k u).withTake x) :
    (match (s.withTake x).memWrite b i v with | none => .fault f | some u => k' u) =
      Res.withTake x (match s.memWrite b i v with | none => .fault f | some u => k u) := by
  rw [memWrite_withTake]
  cases s.memWrite b i v with
  | none => rfl
  | some u => exact hk u

theorem raiseReject_withTake (p : Protocol) (code : RejectCode) :
    raiseReject p code (s.withTake x) = (raiseReject p code s).withTake x := by
  cases p <;> rfl

theorem next_raiseReject_withTake (p : Protocol) (code : RejectCode) :
    Host.Outcome.next (raiseReject p code (s.withTake x)) = Res.withTake x (.next (raiseReject p code s)) :=
  congrArg _ (raiseReject_withTake x s p code)

/-! The text rows. -/

theorem finishLine_withTake (r : Except RejectCode LineMsg) : finishLine r (s.withTake x) = (finishLine r s).withTake x := by
  cases r with
  | error code => exact raiseReject_withTake x s .text code
  | ok msg => rfl

theorem textRow_withTake (k : LineKind) (operand : List Byte) :
    textRow k operand (s.withTake x) = (textRow k operand s).withTake x :=
  Res.withTake_ite x (congrArg _ (finishLine_withTake x s _)) rfl

theorem execTxtByte_withTake (b : Byte) : execTxtByte b (s.withTake x) = (execTxtByte b s).withTake x :=
  Res.withTake_ite x (Res.withTake_ite x (memWrite_then_withTake x s fun _ => rfl) rfl) rfl

theorem execTxtLf_withTake : execTxtLf (s.withTake x) = (execTxtLf s).withTake x := by
  refine Res.withTake_ite x (Res.withTake_ite x (next_raiseReject_withTake x s _ _) ?_) rfl
  simp only [State.withTake_txt, memRead_withTake]
  cases s.memRead .txtBuf 0 s.txt.idx with
  | none => rfl
  | some bytes =>
    dsimp only
    cases splitLine (bytes ++ [chLf]) with
    | error code => exact next_raiseReject_withTake x (s.setTxt { s.txt with idx := 0 }) .text code
    | ok line =>
      simp only [runLine_eq]
      exact textRow_withTake x (s.setTxt { s.txt with idx := 0 }) line.1 line.2

/-! The CRSF rows. -/

theorem runCrsfFrame_withTake (type : Byte) (payload : List Byte) :
    runCrsfFrame type payload (s.withTake x) = (runCrsfFrame type payload s).withTake x := by
  simp only [runCrsfFrame, State.withTake_cfg]
  cases crsfClassify s.cfg type with
  | rc => exact Res.withTake_ite x (Res.withTake_ite x rfl (next_raiseReject_withTake x s _ _)) rfl
  | telem => exact Res.withTake_ite x rfl rfl
  | unknown => exact Res.withTake_ite x rfl rfl

theorem execCrsfLen_withTake (b : Byte) : execCrsfLen b (s.withTake x) = (execCrsfLen b s).withTake x :=
  Res.withTake_ite x (Res.withTake_ite x (next_raiseReject_withTake x s _ _)
    (Res.withTake_ite x (next_raiseReject_withTake x s _ _) rfl)) rfl

theorem execCrsfAcc_withTake (b : Byte) : execCrsfAcc b (s.withTake x) = (execCrsfAcc b s).withTake x :=
  Res.withTake_ite x (memWrite_then_withTake x s fun _ => rfl) rfl

theorem execCrsfCrc_withTake (b : Byte) : execCrsfCrc b (s.withTake x) = (execCrsfCrc b s).withTake x := by
  refine Res.withTake_ite x ?_ rfl
  simp only [State.withTake_crsf, memRead_withTake, memWrite_withTake]
  cases s.memRead .crsfBuf 0 (s.crsf.len.toNat - 1) with
  | none => rfl
  | some body =>
    cases s.memWrite .crsfBuf s.crsf.idx.toNat b with
    | none => rfl
    | some u =>
      exact Res.withTake_ite x (runCrsfFrame_withTake x (toScan .crsf u) _ _) (next_raiseReject_withTake x u _ _)

/-! The MAVLink rows. -/

theorem runMavFrame_withTake (cls : MavClass) (ver : MavVer) (hdr pay : List Byte) (crc : Half) :
    runMavFrame cls ver hdr pay crc (s.withTake x) = (runMavFrame cls ver hdr pay crc s).withTake x := by
  cases cls with
  | heartbeat | manualControl | ignored => exact Res.withTake_ite x rfl rfl

theorem execMavHdr_withTake (b : Byte) : execMavHdr b (s.withTake x) = (execMavHdr b s).withTake x :=
  Res.withTake_ite x (memWrite_then_withTake x s fun _ => rfl) rfl

theorem execMavPay_withTake (b : Byte) : execMavPay b (s.withTake x) = (execMavPay b s).withTake x :=
  Res.withTake_ite x (memWrite_then_withTake x s fun _ => rfl) rfl

theorem execMavCrcHi_withTake (b : Byte) : execMavCrcHi b (s.withTake x) = (execMavCrcHi b s).withTake x := by
  refine Res.withTake_ite x ?_ rfl
  simp only [State.withTake_cfg, State.withTake_mav, memRead_withTake]
  cases s.memRead .mavHdr 0 (hlen s.mav.ver) with
  | none => rfl
  | some hdr =>
    cases s.memRead .mavPay 0 s.mav.len.toNat with
    | none => rfl
    | some pay =>
      dsimp only
      cases mavClassify s.cfg s.mav.ver s.mav.len hdr pay (le16 s.mav.crcLo b) with
      | error code => exact next_raiseReject_withTake x s .mavlink code
      | ok cls => exact runMavFrame_withTake x (toScan .mavlink s) cls _ _ _ _

/-- The byte-step rows of the selected parser, by the state its framer is in. -/
theorem exec_inRx_withTake (b : Byte) : exec (.inRx b) (s.withTake x) = Res.withTake x (exec (.inRx b) s) := by
  simp only [exec, execInRx, State.withTake_cfg, State.withTake_crsf, State.withTake_mav]
  cases s.cfg.protocol with
  | text => exact Res.withTake_ite x (execTxtLf_withTake x s) (execTxtByte_withTake x s b)
  | crsf =>
    cases s.crsf.st with
    | awaitSync => exact Res.withTake_ite x (Res.withTake_ite x rfl rfl) rfl
    | awaitLength => exact execCrsfLen_withTake x s b
    | accumulatePayload => exact execCrsfAcc_withTake x s b
    | awaitCrc => exact execCrsfCrc_withTake x s b
  | mavlink =>
    cases s.mav.st with
    | awaitSync => exact Res.withTake_ite x (Res.withTake_ite x rfl rfl) (Res.withTake_ite x (Res.withTake_ite x rfl rfl) rfl)
    | awaitLength => exact Res.withTake_ite x rfl rfl
    | accumulateHeader => exact execMavHdr_withTake x s b
    | accumulatePayload => exact execMavPay_withTake x s b
    | awaitCrcLow => exact Res.withTake_ite x rfl rfl
    | awaitCrcHigh => exact execMavCrcHi_withTake x s b

end TakeStrobe

/-! ### A Take and a Publish in one cycle (45 R304, 60 R348) -/

/-- A byte that publishes publishes the same after a take and a latch in the same cycle: mailbox, output task and take strobe are not
read. -/
theorem exec_inRx_after_ready {b : Byte} {s u : State} (h : exec (.inRx b) s = .next u) :
    ∃ v, exec (.inRx b) ((take s).setOut ⟨.sending, s.mbox.cell⟩) = .next v ∧ v.pulses.publish = u.pulses.publish := by
  obtain ⟨w, hw, -, -, -, hpulses, -⟩ := inputSideCannotReadTheMailbox b s u ⟨s.mbox.cell, false⟩ ⟨.sending, s.mbox.cell⟩ h
  have hpub : w.pulses.publish = u.pulses.publish := congrArg Pulses.publish hpulses
  refine ⟨w.withTake (some s.mbox.cell), ?_, hpub⟩
  calc exec (.inRx b) ((take s).setOut ⟨.sending, s.mbox.cell⟩)
    _ = exec (.inRx b) ((s.withOutputSide ⟨s.mbox.cell, false⟩ ⟨.sending, s.mbox.cell⟩).withTake (some s.mbox.cell)) := rfl
    _ = Res.withTake (some s.mbox.cell) (exec (.inRx b) (s.withOutputSide ⟨s.mbox.cell, false⟩ ⟨.sending, s.mbox.cell⟩)) :=
      exec_inRx_withTake _ _ b
    _ = .next (w.withTake (some s.mbox.cell)) := congrArg (Res.withTake _) hw

/-- A row of the input side that raises the publish strobe overwrote the cell with the published value. -/
theorem InputOutcome.mailboxView_of_publish {s t : State} {g : GamepadState} (h : InputOutcome s (.next t))
    (hquiet : s.pulses.publish = none) (hpub : t.pulses.publish = some g) : t.mailboxView = s.mailboxView.withPublish g := by
  cases h with
  | kept hview =>
    obtain ⟨-, -, hsame, -⟩ := MailboxView.mk.inj hview
    cases hpub.symm.trans (hsame.trans hquiet)
  | published g' hview =>
    obtain ⟨-, -, hg', -⟩ := MailboxView.mk.inj hview
    obtain rfl : g = g' := Option.some.inj (hpub.symm.trans hg')
    exact hview

/-- A receive error after the byte is the pulse alone. -/
theorem execAll_receiveError (err : Bool) (s : State) :
    ∃ t, execAll (if err then [.inRxErr] else []) s = .next t ∧ t.mailboxView = s.mailboxView := by
  cases err with
  | true => exact ⟨pulseFaultIn s, rfl, rfl⟩
  | false => exact ⟨s, rfl, rfl⟩

/-- A cycle in which the sink becomes ready and a byte comes in is the ready row, the byte, and the receive error if there is one. -/
theorem cycleInstrs_ready_rx {p : PortIn} {s : State} (hst : s.out.st = .waitReady) (hready : p.snkReady = true)
    (hrx : p.rxValid = true) :
    cycleInstrs p s = .outReady :: .inRx p.rxData :: (if p.rxErr then [.inRxErr] else []) := by
  simp [cycleInstrs, outInstrs, inInstrs, hst, hready, hrx]

theorem runCycle_of_not_rst {p : PortIn} (h : p.rst = false) (s : State) : runCycle p s = execAll (cycleInstrs p s) s := by
  simp [runCycle, h]

/-- Settles O58: the ready row takes and latches the old cell, and the byte behind it publishes what it would have published alone. -/
theorem sameCyclePublishFollowsTake : Obligations.SameCyclePublishFollowsTake := by
  intro s u rest p g hinbox hrst hst _ hready hrx hbyte hpub
  obtain ⟨v, hv, hsame⟩ := exec_inRx_after_ready (s := accept rest s) hbyte
  obtain ⟨t, ht, herr⟩ := execAll_receiveError p.rxErr v
  have hbyteOutcome := exec_inputRow_outcome (.inl ⟨p.rxData, rfl⟩) ((take (accept rest s)).setOut ⟨.sending, s.mbox.cell⟩)
  have hview := (hv ▸ hbyteOutcome).mailboxView_of_publish rfl (hsame.trans hpub)
  obtain ⟨hmbox, hout, hpublish, htake⟩ := MailboxView.mk.inj (herr.trans hview)
  refine ⟨t, ?_, htake, hout, hpublish, hmbox⟩
  calc step s
    _ = runCycle p (accept rest s) := step_cons hinbox
    _ = execAll (.outReady :: .inRx p.rxData :: (if p.rxErr then [.inRxErr] else [])) (accept rest s) := by
      rw [runCycle_of_not_rst hrst, cycleInstrs_ready_rx (s := accept rest s) hst hready hrx]
    _ = execAll (if p.rxErr then [.inRxErr] else []) v := by
      rw [execAll_cons _ _ _ _ (exec_outReady_of_waitReady (s := accept rest s) hst), execAll_cons _ _ _ _ hv]
    _ = .next t := ht

end Sys2Proof.Machine
end

section
/-! Rejects (family 60_exceptions; 60 R349): what each row can do to the event output, and what stands as before when it rejects. -/

namespace Sys2Proof.Machine

/-! ### Outside one parser -/

/-- `SameOutside p s t`: `t` is `s` but for the registers of parser `p`, of which txt.held stands too. -/
inductive SameOutside : Protocol → State → State → Prop
  | text {s : State} {r : TxtRegs} (hheld : r.held = s.txt.held) : SameOutside .text s (s.setTxt r)
  | crsf {s : State} (r : CrsfRegs) : SameOutside .crsf s (s.setCrsf r)
  | mavlink {s : State} (r : MavRegs) : SameOutside .mavlink s (s.setMav r)

theorem SameOutside.refl (p : Protocol) (s : State) : SameOutside p s s := by
  cases p with
  | text => exact .text (r := s.txt) rfl
  | crsf => exact .crsf s.crsf
  | mavlink => exact .mavlink s.mav

theorem SameOutside.toScan {p : Protocol} {s t : State} (h : SameOutside p s t) : SameOutside p s (toScan p t) := by
  cases h with
  | text hheld => exact .text hheld
  | crsf r => exact .crsf _
  | mavlink r => exact .mavlink _

theorem SameOutside.pulses {p : Protocol} {s t : State} (h : SameOutside p s t) : t.pulses = s.pulses := by
  cases h <;> rfl

theorem sameOutside_memWrite_crsf {s t : State} {i : Nat} {v : Byte} (h : s.memWrite .crsfBuf i v = some t) :
    SameOutside .crsf s t := by
  obtain ⟨-, rfl⟩ := memWrite_eq_some.1 h
  exact .crsf _

/-! ### The event of a row -/

/-- Everything a row of parser `p` can do to the event output, run in a step that has no event yet: emit none, emit one that is no
reject, take the reject entry in a state that differs from `s` in the parser's own registers, or fault. -/
inductive EventOutcome (p : Protocol) (s : State) : Res → Prop
  | quiet {t : State} (h : t.pulses.evt = none) : EventOutcome p s (.next t)
  | accepted {t : State} {e : OutEvent} (hevt : t.pulses.evt = some e) (he : ∀ c, e ≠ .reject c) : EventOutcome p s (.next t)
  | rejected {u : State} (h : SameOutside p s u) (code : RejectCode) : EventOutcome p s (.next (raiseReject p code u))
  | fault (f : Fault) : EventOutcome p s (.fault f)

theorem EventOutcome.ite {p : Protocol} {s : State} {q : Prop} [Decidable q] {r r' : Res} (ht : EventOutcome p s r)
    (he : EventOutcome p s r') : EventOutcome p s (if q then r else r') := by
  split
  · exact ht
  · exact he

/-- An outcome that shows a reject took the reject entry with that code. -/
theorem EventOutcome.of_reject {p : Protocol} {s t : State} {c : RejectCode} (h : EventOutcome p s (.next t))
    (hevt : t.pulses.evt = some (.reject c)) : ∃ u, SameOutside p s u ∧ t = raiseReject p c u := by
  cases h with
  | quiet hnone => exact absurd (hnone.symm.trans hevt) nofun
  | accepted he hnot => exact absurd (Option.some.inj (he.symm.trans hevt)) (hnot c)
  | @rejected u hu code =>
    obtain rfl : code = c := OutEvent.reject.inj (Option.some.inj hevt)
    exact ⟨u, hu, rfl⟩

/-! ### The rows that complete a line or a frame -/

/-- A line that is refused rejects, an accepted one emits its message (40 R149, R152). -/
theorem finishLine_event {s t : State} (h : SameOutside .text s t) (r : Except RejectCode LineMsg) :
    EventOutcome .text s (.next (finishLine r t)) := by
  cases r with
  | error code => exact .rejected h code
  | ok msg => exact .accepted rfl (by cases msg <;> nofun)

section FrameRows

variable {s t : State} (hs : s.pulses.evt = none)
include hs

theorem textRow_event (h : SameOutside .text s t) (k : LineKind) (operand : List Byte) :
    EventOutcome .text s (textRow k operand t) :=
  .ite (finishLine_event h _) (.quiet (h.pulses ▸ hs))

theorem execCrsfRc_event (h : SameOutside .crsf s t) (payload : List Byte) : EventOutcome .crsf s (execCrsfRc payload t) :=
  .ite (.ite (.accepted rfl nofun) (.rejected h .crsfBadPayloadLength)) (.quiet (h.pulses ▸ hs))

theorem execCrsfTelem_event (h : SameOutside .crsf s t) (type : Byte) (payload : List Byte) :
    EventOutcome .crsf s (execCrsfTelem type payload t) :=
  .ite (.accepted rfl nofun) (.quiet (h.pulses ▸ hs))

theorem execCrsfUnknown_event (h : SameOutside .crsf s t) (type : Byte) (payload : List Byte) :
    EventOutcome .crsf s (execCrsfUnknown type payload t) :=
  .ite (.accepted rfl nofun) (.quiet (h.pulses ▸ hs))

theorem runCrsfFrame_event (h : SameOutside .crsf s t) (type : Byte) (payload : List Byte) :
    EventOutcome .crsf s (runCrsfFrame type payload t) := by
  unfold runCrsfFrame
  cases crsfClassify t.cfg type with
  | rc => exact execCrsfRc_event hs h payload
  | telem => exact execCrsfTelem_event hs h type payload
  | unknown => exact execCrsfUnknown_event hs h type payload

theorem execMavHeartbeat_event (h : SameOutside .mavlink s t) (hd : MavHeader) (payload : List Byte) :
    EventOutcome .mavlink s (execMavHeartbeat hd payload t) :=
  .ite (.accepted rfl nofun) (.quiet (h.pulses ▸ hs))

theorem execMavManualControl_event (h : SameOutside .mavlink s t) (hd : MavHeader) (payload : List Byte) :
    EventOutcome .mavlink s (execMavManualControl hd payload t) :=
  .ite (.accepted rfl nofun) (.quiet (h.pulses ▸ hs))

theorem execMavUnknown_event (h : SameOutside .mavlink s t) (hd : MavHeader) (id : MsgId) (payload : List Byte) (crc : Half) :
    EventOutcome .mavlink s (execMavUnknown hd id payload crc t) :=
  .ite (.accepted rfl nofun) (.quiet (h.pulses ▸ hs))

theorem runMavFrame_event (h : SameOutside .mavlink s t) (cls : MavClass) (ver : MavVer) (hdr pay : List Byte) (crc : Half) :
    EventOutcome .mavlink s (runMavFrame cls ver hdr pay crc t) := by
  cases cls with
  | heartbeat => exact execMavHeartbeat_event hs h (headerOf ver hdr) pay
  | manualControl => exact execMavManualControl_event hs h (headerOf ver hdr) pay
  | ignored => exact execMavUnknown_event hs h (headerOf ver hdr) (msgIdOf ver hdr) pay crc

end FrameRows

/-! ### The byte-step rows -/

section ByteRows

variable {s : State} (hs : s.pulses.evt = none)
include hs

/-- A byte stored in an array, registers written after it: an access outside the array faults. -/
theorem memWrite_event {p : Protocol} {b : BufId} {i : Nat} {v : Byte} {f : Fault} {k : State → Res}
    (hk : ∀ u : State, u.pulses.evt = none → EventOutcome p s (k u)) :
    EventOutcome p s (match s.memWrite b i v with | none => .fault f | some u => k u) := by
  cases hw : s.memWrite b i v with
  | none => exact .fault f
  | some u =>
    obtain ⟨-, rfl⟩ := memWrite_eq_some.1 hw
    obtain ⟨-, -, -, hpulses, -⟩ := State.setBuf_fields s b ((s.buf b).write i v)
    exact hk _ (hpulses ▸ hs)

theorem execTxtByte_event (b : Byte) : EventOutcome .text s (execTxtByte b s) :=
  .ite (.ite (memWrite_event hs fun _ hu => .quiet hu) (.quiet hs)) (.quiet hs)

theorem execTxtLf_event : EventOutcome .text s (execTxtLf s) := by
  refine .ite (.ite (.rejected (.refl .text s) .txtLineTooLong) ?_) (.quiet hs)
  have hempty : SameOutside .text s (s.setTxt { s.txt with idx := 0 }) := .text rfl
  split
  · exact .fault _
  · dsimp only
    split
    next code _ => exact .rejected hempty code
    next k operand _ => exact runLine_eq k operand _ ▸ textRow_event hs hempty k operand

theorem execCrsfLen_event (b : Byte) : EventOutcome .crsf s (execCrsfLen b s) :=
  .ite (.ite (.rejected (.refl .crsf s) .crsfOverLength)
    (.ite (.rejected (.refl .crsf s) .crsfUnderLength) (.quiet hs))) (.quiet hs)

theorem execCrsfAcc_event (b : Byte) : EventOutcome .crsf s (execCrsfAcc b s) :=
  .ite (memWrite_event hs fun _ hu => .quiet hu) (.quiet hs)

theorem execCrsfCrc_event (b : Byte) : EventOutcome .crsf s (execCrsfCrc b s) := by
  refine .ite ?_ (.quiet hs)
  split
  next body u _ hw =>
    have hu := sameOutside_memWrite_crsf hw
    exact .ite (runCrsfFrame_event hs hu.toScan _ _) (.rejected hu .crsfCrcMismatch)
  · exact .fault _

theorem execMavHdr_event (b : Byte) : EventOutcome .mavlink s (execMavHdr b s) :=
  .ite (memWrite_event hs fun _ hu => .quiet hu) (.quiet hs)

theorem execMavPay_event (b : Byte) : EventOutcome .mavlink s (execMavPay b s) :=
  .ite (memWrite_event hs fun _ hu => .quiet hu) (.quiet hs)

theorem execMavCrcHi_event (b : Byte) : EventOutcome .mavlink s (execMavCrcHi b s) := by
  refine .ite ?_ (.quiet hs)
  have hself := SameOutside.refl .mavlink s
  split
  · dsimp only
    split
    next code _ => exact .rejected hself code
    · exact runMavFrame_event hs hself.toScan _ _ _ _ _
  · exact .fault _
  · exact .fault _

end ByteRows

/-! ### Every row -/

theorem exec_parserRow_event {i : Instr} {p : Protocol} (hi : parserOf i = some p) {s : State} (hs : s.pulses.evt = none) :
    EventOutcome p s (exec i s) := by
  have self := fun p => SameOutside.refl p s
  match i, p, hi with
  | .txtG rest, _, rfl => exact textRow_event hs (self _) .full rest
  | .txtUB val, _, rfl => exact textRow_event hs (self _) .b val
  | .txtULX val, _, rfl => exact textRow_event hs (self _) .lx val
  | .txtULY val, _, rfl => exact textRow_event hs (self _) .ly val
  | .txtURX val, _, rfl => exact textRow_event hs (self _) .rx val
  | .txtURY val, _, rfl => exact textRow_event hs (self _) .ry val
  | .txtULT val, _, rfl => exact textRow_event hs (self _) .lt val
  | .txtURT val, _, rfl => exact textRow_event hs (self _) .rt val
  | .txtByte b, _, rfl => exact execTxtByte_event hs b
  | .txtLf, _, rfl => exact execTxtLf_event hs
  | .crsfSync _, _, rfl => exact .ite (.quiet hs) (.quiet hs)
  | .crsfSkip _, _, rfl => exact .quiet hs
  | .crsfLen b, _, rfl => exact execCrsfLen_event hs b
  | .crsfAcc b, _, rfl => exact execCrsfAcc_event hs b
  | .crsfCrc b, _, rfl => exact execCrsfCrc_event hs b
  | .crsfRc payload, _, rfl => exact execCrsfRc_event hs (self _) payload
  | .crsfTelem type payload, _, rfl => exact execCrsfTelem_event hs (self _) type payload
  | .crsfUnknown type payload, _, rfl => exact execCrsfUnknown_event hs (self _) type payload
  | .mavSync1, _, rfl => exact .ite (.quiet hs) (.quiet hs)
  | .mavSync2, _, rfl => exact .ite (.quiet hs) (.quiet hs)
  | .mavSkip _, _, rfl => exact .quiet hs
  | .mavLen _, _, rfl => exact .ite (.quiet hs) (.quiet hs)
  | .mavHdr b, _, rfl => exact execMavHdr_event hs b
  | .mavPay b, _, rfl => exact execMavPay_event hs b
  | .mavCrcLo _, _, rfl => exact .ite (.quiet hs) (.quiet hs)
  | .mavCrcHi b, _, rfl => exact execMavCrcHi_event hs b
  | .mavHeartbeat hd payload, _, rfl => exact execMavHeartbeat_event hs (self _) hd payload
  | .mavManualControl hd payload, _, rfl => exact execMavManualControl_event hs (self _) hd payload
  | .mavUnknown hd id payload crc, _, rfl => exact execMavUnknown_event hs (self _) hd id payload crc

/-- A row of a parser that is not selected takes no step, so the row that emits an event belongs to the selected parser (00 R3). -/
theorem exec_selectedParser_event {i : Instr} {p : Protocol} (hi : parserOf i = some p) {s : State} (hs : s.pulses.evt = none) :
    EventOutcome s.cfg.protocol s (exec i s) := by
  by_cases hp : s.cfg.protocol = p
  · exact hp ▸ exec_parserRow_event hi hs
  · rw [absentParsersTakeNoStep i s p hi hp]
    exact .quiet hs

/-- Every instruction: the rows of the bridge and the mailbox emit no event of their own, and IN.RX is a row of a parser. -/
theorem exec_event (i : Instr) {s : State} (hs : s.pulses.evt = none) : EventOutcome s.cfg.protocol s (exec i s) := by
  cases hi : parserOf i with
  | some p => exact exec_selectedParser_event hi hs
  | none =>
    match i, hi with
    | .mboxPublish _, _ => exact .quiet hs
    | .mboxTake, _ => exact .quiet hs
    | .inRx b, _ => exact exec_inRx b s ▸ exec_selectedParser_event (parserOf_byteInstr s.cfg (byteCtx s) b) hs
    | .inRxErr, _ => exact .quiet hs
    | .outWake, _ => exact .ite (.quiet hs) (.quiet hs)
    | .outReady, _ => exact .ite (.quiet hs) (.quiet hs)
    | .outDone ok, _ => exact .ite (.quiet (by cases ok <;> exact hs)) (.quiet hs)

/-- Settles O14: an instruction that rejects took the reject entry of the selected parser in a state that differs in that parser's
registers alone. -/
theorem rejectTouchesOnlyItsParser : Obligations.RejectTouchesOnlyItsParser := by
  intro i s t c hs hnext hevt
  obtain ⟨u, hu, rfl⟩ := (hnext ▸ exec_event i hs).of_reject hevt
  generalize s.cfg.protocol = p at hu ⊢
  cases hu with
  | text hheld => exact ⟨hheld, rfl, rfl, rfl, rfl, rfl, fun _ => ⟨rfl, rfl, rfl, rfl⟩, nofun, nofun⟩
  | crsf r => exact ⟨rfl, rfl, rfl, rfl, rfl, rfl, nofun, fun _ => ⟨rfl, rfl, rfl, rfl, rfl⟩, nofun⟩
  | mavlink r => exact ⟨rfl, rfl, rfl, rfl, rfl, rfl, nofun, nofun, fun _ => ⟨rfl, rfl, rfl, rfl, rfl, rfl⟩⟩

end Sys2Proof.Machine
end

section
/-! What a publish needs of the MAVLink parser (family 70_reset_and_hazards; 70 R388), and the spec's words written out
(30 sections 2 to 7, 95 section 2). -/

namespace Sys2Proof.Machine

/-! ### A publish of the MAVLink parser (70 R388) -/

/-- The outcome shows no publish strobe: a state without one, or a fault. -/
inductive Unpublished : Res → Prop
  | next {t : State} (h : t.pulses.publish = none) : Unpublished (.next t)
  | fault (f : Fault) : Unpublished (.fault f)

theorem Unpublished.of_next {t : State} (h : Unpublished (.next t)) : t.pulses.publish = none := by
  cases h
  assumption

theorem Unpublished.ite {p : Prop} [Decidable p] {r r' : Res} (ht : Unpublished r) (he : Unpublished r') :
    Unpublished (if p then r else r') := by
  split
  · exact ht
  · exact he

/-- The frame that is classified as MANUAL_CONTROL has the id 69, and its CRC is the frame's (43 R241, 44 R270). -/
theorem mavClassify_eq_manualControl {c : Config} {ver : MavVer} {len : Byte} {hdr pay : List Byte} {crc : Half}
    (h : mavClassify c ver len hdr pay crc = .ok .manualControl) :
    msgIdOf ver hdr = 69 ∧ ∃ e, c.extra 69 = some e ∧ crc = frameCrc c.mavCrcCoversLen len hdr pay e := by
  cases hextra : c.extra (msgIdOf ver hdr) with
  | none => exact absurd ((mavClassify_unknown hextra).symm.trans h) nofun
  | some e =>
    by_cases hcrc : crc = frameCrc c.mavCrcCoversLen len hdr pay e
    · rw [hcrc, mavClassify_known hextra] at h
      have hcls := Except.ok.inj h
      have h69 : msgIdOf ver hdr = 69 := by
        by_contra hne
        rw [if_neg hne] at hcls
        split at hcls <;> cases hcls
      exact ⟨h69, e, h69 ▸ hextra, hcrc⟩
    · exact absurd ((mavClassify_mismatch hextra hcrc).symm.trans h) nofun

section ByteRows

variable {s : State} (hs : s.pulses.publish = none)
include hs

/-- A byte stored in an array, registers written after it. -/
theorem memWrite_unpublished {b : BufId} {i : Nat} {v : Byte} {f : Fault} {k : State → Res}
    (hk : ∀ u : State, u.pulses.publish = none → Unpublished (k u)) :
    Unpublished (match s.memWrite b i v with | none => .fault f | some u => k u) := by
  cases hw : s.memWrite b i v with
  | none => exact .fault f
  | some u =>
    obtain ⟨-, rfl⟩ := memWrite_eq_some.1 hw
    obtain ⟨-, -, -, hpulses, -⟩ := State.setBuf_fields s b ((s.buf b).write i v)
    exact hk _ (hpulses ▸ hs)

/-- Of the frame rows MAV.MANUAL_CONTROL alone publishes. -/
theorem runMavFrame_unpublished {cls : MavClass} (hcls : cls ≠ .manualControl) (ver : MavVer) (hdr pay : List Byte) (crc : Half) :
    Unpublished (runMavFrame cls ver hdr pay crc s) := by
  have hsame := Unpublished.next hs
  cases cls with
  | heartbeat => exact .ite (.next hs) hsame
  | manualControl => exact absurd rfl hcls
  | ignored => exact .ite (.next hs) hsame

/-- No byte before the last one of a frame publishes. -/
theorem exec_mavByteInstr_unpublished {st : MavSt} (hst : st ≠ .awaitCrcHigh) (b : Byte) :
    Unpublished (exec (byteInstr s.cfg (.mav st) b) s) := by
  have hsame := Unpublished.next hs
  cases st with
  | awaitSync =>
    dsimp only [byteInstr]
    split
    · exact .ite (.next hs) hsame
    · split
      · exact .ite (.next hs) hsame
      · exact hsame
  | awaitLength => exact .ite (.next hs) hsame
  | accumulateHeader =>
    exact .ite (memWrite_unpublished hs fun _ hu => .next hu) hsame
  | accumulatePayload =>
    exact .ite (memWrite_unpublished hs fun _ hu => .next hu) hsame
  | awaitCrcLow => exact .ite (.next hs) hsame
  | awaitCrcHigh => exact absurd rfl hst

/-- The last byte publishes only when the frame it completes is classified as MANUAL_CONTROL. -/
theorem execMavCrcHi_unpublished {b : Byte}
    (hcls : mavClassify s.cfg s.mav.ver s.mav.len (s.mav.hdr.readRange 0 (hlen s.mav.ver))
      (s.mav.pay.readRange 0 s.mav.len.toNat) (le16 s.mav.crcLo b) ≠ .ok .manualControl) : Unpublished (execMavCrcHi b s) := by
  refine .ite ?_ (.next hs)
  split
  next hdr pay hhdr hpay =>
    obtain ⟨-, rfl⟩ := memRead_eq_some.1 hhdr
    obtain ⟨-, rfl⟩ := memRead_eq_some.1 hpay
    dsimp only
    split
    · exact .next hs
    next cls hok =>
      have hne : cls ≠ .manualControl := fun h => hcls (h ▸ hok)
      exact runMavFrame_unpublished (s := toScan .mavlink s) hs hne _ _ _ _
  · exact .fault _
  · exact .fault _

end ByteRows

/-- Settles O49: a byte in any other state publishes nothing, nor does a last byte whose frame has another class, and the class says
which id and which CRC the frame has. -/
theorem onlyCheckedManualControlPublishes : Obligations.OnlyCheckedManualControlPublishes := by
  intro b s t hp hs hnext hpub hdr
  have hst : s.mav.st = .awaitCrcHigh := by
    by_contra hne
    rw [exec_inRx_mav (mavIn_eq_true.2 ⟨hp, rfl⟩)] at hnext
    exact hpub (hnext ▸ exec_mavByteInstr_unpublished hs hne b).of_next
  rw [exec_inRx_mav (mavIn_eq_true.2 ⟨hp, hst⟩), byteInstr] at hnext
  have hcls : mavClassify s.cfg s.mav.ver s.mav.len hdr (s.mav.pay.readRange 0 s.mav.len.toNat) (le16 s.mav.crcLo b) =
      .ok .manualControl := by
    by_contra hne
    have hquiet : Unpublished (exec (.mavCrcHi b) s) := execMavCrcHi_unpublished hs hne
    exact hpub (hnext ▸ hquiet).of_next
  exact ⟨hst, mavClassify_eq_manualControl hcls⟩

/-! ### Words written out (30 sections 2 to 7, 95 section 2) -/

/-- A code that the encoder writes for a well-formed instruction is decoded to it. -/
theorem decode_of_encode_eq {c : Config} {i : Instr} {code : Code} (hc : c.wf) (hcode : encode c i = code) (hi : i.wf c = true) :
    decode c code = .ok i :=
  hcode ▸ decodeEncodeRoundTrip c i hc hi

/-- A line whose checksum digits do not stand for the checksum of its body is rejected as that (40 R136). -/
theorem decodeLine_checksumMismatch {line : List Byte} {sum : Nat} (hframed : Framed line sum)
    (hsum : (xor8 (line.take (line.length - 4))).toNat ≠ sum) : decodeLine line = .error (.reject .txtChecksumMismatch) := by
  rw [decodeLine, splitLine_of_framed hframed, if_neg hsum]

/-- Settles O2: each word but the last is what the encoder writes for its instruction, the CRC of a frame included where it is
checked; the last is a line whose digits say 0x00 where its body has the checksum 0x47. -/
theorem decodedWordsOfTheSpec : Obligations.DecodedWordsOfTheSpec := by
  have hc : (defaultConfig .text).wf := by decide
  have hframed : Framed [0x47, 0x2A, 0x30, 0x30, 0x0A] 0 := ⟨by decide, rfl, rfl, 0, 0, rfl, rfl, rfl⟩
  refine ⟨?_, ?_, ?_, ?_, ?_, ?_, ?_, ?_, decodeLine_checksumMismatch hframed (by decide)⟩
  · exact decode_of_encode_eq hc rfl rfl
  · exact decode_of_encode_eq hc rfl rfl
  · exact decode_of_encode_eq hc (by decide +kernel) rfl
  · exact decode_of_encode_eq hc (by decide +kernel) rfl
  · exact decode_of_encode_eq hc (by decide +kernel) rfl
  · exact decode_of_encode_eq hc rfl rfl
  · exact decode_of_encode_eq hc rfl rfl
  · exact decode_of_encode_eq hc rfl rfl

end Sys2Proof.Machine
end
